-- ==== Sys2Proof/Word.lean ====
section
/-! DEFINITION. The two value types of the datapath (00_scope.md section 6.1): a word is 32 bits, a byte is 8 bits, both
unsigned. -/

namespace Sys2Proof

/-- A datapath word, "32 bits, an unsigned integer 0 to 2^32 − 1" (00_scope.md section 6.1). -/
abbrev Word := BitVec 32

/-- A byte, "8 bits, an unsigned integer 0 to 255" (00_scope.md section 6.1). -/
abbrev Byte := BitVec 8

end Sys2Proof
end

