-- ==== Sys2Proof/Config.lean ====
section
/-! DEFINITION. What is fixed for one machine: the constants of rule R4, the parameters rule R5 leaves open, and the free
value of the reads to which the spec gives `any value`. -/

namespace Sys2Proof.Config

/-- KEY_SIZE (R4). -/
def keySize : Nat := 32
/-- NONCE_SIZE (R4). -/
def nonceSize : Nat := 12
/-- BLOCK_SIZE (R4). -/
def blockSize : Nat := 64
/-- The greatest value of the 32-bit counter (R4 COUNTER_BITS, R112). -/
def counterMax : Nat := 2 ^ 32 - 1

/-- The eight index tuples `TUPLE[0..7]` of rule R71 (30_encoding.md), in the order the sequencer issues them: the four
column tuples, then the four diagonal tuples. -/
def tuples : List (BitVec 4 × BitVec 4 × BitVec 4 × BitVec 4) :=
  [(0, 4, 8, 12), (1, 5, 9, 13), (2, 6, 10, 14), (3, 7, 11, 15),
   (0, 5, 10, 15), (1, 6, 11, 12), (2, 7, 8, 13), (3, 4, 9, 14)]

/-- The two widths rule R5 leaves open as arguments of the model. They stand in `State`, so that a statement about every
state is a statement about every value of them; no step changes them (log 1). -/
structure Params where
  /-- ADDR_BITS: the data memory has addresses `0 … 2^addrBits − 1` (R40). -/
  addrBits : Nat
  /-- LEN_BITS: the width of the four length registers (R19). -/
  lenBits : Nat
  deriving DecidableEq, Repr

/-- DESIGN CHOICE (log 1): the widths in the state after reset. R5 leaves both open; 64 holds every vector of
95_test_vectors.md, V26 included. Unsafe for a claim that rests on the number. -/
def resetParams : Params := { addrBits := 64, lenBits := 64 }

/-- The value of a host read to which the spec gives `any value` (R23 for CTR_OUT without a result, R26 for a descriptor
register never written; log 4), and of a descriptor register after a write that does not fit it (log 17): a free value, drawn
with the counter `State.fresh`. Nothing in Lean can evaluate it. Safe. -/
opaque freeValue : Nat → Nat

end Sys2Proof.Config
end

