-- ==== Sys2Proof/Syntax.lean ====
section
/-! DEFINITION. The sixteen control words of the opcode map (30_encoding.md rule R64), one constructor each. -/

namespace Sys2Proof

/-- A control word as an operation with its operands: eleven primitives, which the sequencer issues, and five macros, which
only a listing holds (R64). -/
inductive Instr where
  /-- VALID, the four entry checks (R111). -/
  | valid
  /-- OVFCHK, block count and counter-overflow guard (R112). -/
  | ovfchk
  /-- LDKN, load key and nonce words (R80). -/
  | ldkn
  /-- INIT, build the state of one block (R81). -/
  | init
  /-- QR a,b,c,d, the quarter-round on four words of X (R90; format Q, R62). -/
  | qr (a b c d : BitVec 4)
  /-- COLR, macro: the column round (R91). -/
  | colr
  /-- DIAGR, macro: the diagonal round (R92). -/
  | diagr
  /-- DROUND, macro: the double-round (R93). -/
  | dround
  /-- FFADD, the feed-forward adder (R95). -/
  | ffadd
  /-- SER, serialise to the keystream block (R96). -/
  | ser
  /-- BLOCK, macro: the Block Transform (R97). -/
  | block
  /-- XORB m, combine m bytes of one block (R140; format M, R63). -/
  | xorb (m : Byte)
  /-- WIPE, clear the key-derived registers (R141). -/
  | wipe
  /-- CTRINC, advance the counter (R113). -/
  | ctrinc
  /-- RET, return the counter (R114). -/
  | ret
  /-- XFORM, macro: the whole command (R116). -/
  | xform
  deriving DecidableEq, Repr

/-- The class of a row of R64: the sequencer issues primitives only. -/
def Instr.isPrimitive : Instr → Bool
  | .valid | .ovfchk | .ldkn | .init | .qr _ _ _ _ | .ffadd | .ser | .xorb _ | .wipe | .ctrinc | .ret => true
  | .colr | .diagr | .dround | .block | .xform => false

end Sys2Proof
end

