-- ==== Sys2Proof/WellFormed.lean ====
section
/-! DEFINITION. The operand constraints of the opcode map (30_encoding.md rules R62, R63, R64). -/

namespace Sys2Proof

/-- The operands of a control word are legal: a QR names one of the eight tuples of R71 (R62), an XORB has `1 ≤ m ≤ 64`
(R63); the other words have no operand. -/
def Instr.wf : Instr → Bool
  | .qr a b c d => Config.tuples.contains (a, b, c, d)
  | .xorb m => 1 ≤ m.toNat && m.toNat ≤ Config.blockSize
  | .valid | .ovfchk | .ldkn | .init | .colr | .diagr | .dround | .ffadd | .ser | .block | .wipe | .ctrinc | .ret
  | .xform => true

end Sys2Proof
end

