-- ==== Sys2Proof/Decode.lean ====
section
/-! DEFINITION. The decoder of control words, total, and the encoder (30_encoding.md rules R60 to R65, R71). -/

namespace Sys2Proof

/-- Why a 32-bit word is illegal (R65). -/
inductive DecodeError where
  /-- An `op` byte that is none of the sixteen of R64. -/
  | noSuchOpcode (op : Byte)
  /-- A must-be-zero field of the word's format is not zero (R61). -/
  | zeroFieldNotZero
  /-- A format Q word whose tuple is not one of R71's eight (R62). -/
  | tupleNotInTable (a b c d : BitVec 4)
  /-- A format M word with `m = 0` or `m > 64` (R63). -/
  | byteCountOutOfRange (m : Byte)
  deriving DecidableEq, Repr

/-- Bits 31:24, the opcode (R60). -/
def opField (cw : Word) : Byte := cw.extractLsb' 24 8

/-- Format Z (R61): bits 23:0 must be zero. -/
def decodeZ (cw : Word) (i : Instr) : Except DecodeError Instr :=
  if cw.extractLsb' 0 24 = 0 then .ok i else .error .zeroFieldNotZero

/-- Format Q (R61, R62): bits 23:16 must be zero, then a, b, c, d, four bits each, one of R71's tuples. -/
def decodeQ (cw : Word) : Except DecodeError Instr :=
  let a : BitVec 4 := cw.extractLsb' 12 4
  let b : BitVec 4 := cw.extractLsb' 8 4
  let c : BitVec 4 := cw.extractLsb' 4 4
  let d : BitVec 4 := cw.extractLsb' 0 4
  if cw.extractLsb' 16 8 ≠ 0 then .error .zeroFieldNotZero
  else if Config.tuples.contains (a, b, c, d) then .ok (.qr a b c d)
  else .error (.tupleNotInTable a b c d)

/-- Format M (R61, R63): bits 23:8 must be zero, then m, eight bits, 1 to 64. -/
def decodeM (cw : Word) : Except DecodeError Instr :=
  let m : Byte := cw.extractLsb' 0 8
  if cw.extractLsb' 8 16 ≠ 0 then .error .zeroFieldNotZero
  else if 1 ≤ m.toNat ∧ m.toNat ≤ Config.blockSize then .ok (.xorb m)
  else .error (.byteCountOutOfRange m)

/-- The decoder: every 32-bit word is one of the sixteen rows of R64 or illegal by name (R65). -/
def decode (cw : Word) : Except DecodeError Instr :=
  match (opField cw).toNat with
  | 0x01 => decodeZ cw .valid
  | 0x02 => decodeZ cw .ovfchk
  | 0x03 => decodeZ cw .ldkn
  | 0x10 => decodeZ cw .init
  | 0x20 => decodeQ cw
  | 0x21 => decodeZ cw .colr
  | 0x22 => decodeZ cw .diagr
  | 0x23 => decodeZ cw .dround
  | 0x28 => decodeZ cw .ffadd
  | 0x29 => decodeZ cw .ser
  | 0x2F => decodeZ cw .block
  | 0x30 => decodeM cw
  | 0x31 => decodeZ cw .wipe
  | 0x40 => decodeZ cw .ctrinc
  | 0x41 => decodeZ cw .ret
  | 0x80 => decodeZ cw .xform
  | _ => .error (.noSuchOpcode (opField cw))

/-- The word names one of the rows of R64; the other words are illegal (R65). -/
def isLegalWord (cw : Word) : Bool :=
  match decode cw with
  | .ok _ => true
  | .error _ => false

/-- The opcode byte of each row of R64. -/
def Instr.op : Instr → Byte
  | .valid => 0x01
  | .ovfchk => 0x02
  | .ldkn => 0x03
  | .init => 0x10
  | .qr _ _ _ _ => 0x20
  | .colr => 0x21
  | .diagr => 0x22
  | .dround => 0x23
  | .ffadd => 0x28
  | .ser => 0x29
  | .block => 0x2F
  | .xorb _ => 0x30
  | .wipe => 0x31
  | .ctrinc => 0x40
  | .ret => 0x41
  | .xform => 0x80

/-- Bits 23:0, by format (R61): a, b, c, d in bits 15:12, 11:8, 7:4, 3:0 (R62), m in bits 7:0 (R63). -/
def Instr.operandField : Instr → Word
  | .qr a b c d => a.setWidth 32 <<< 12 ||| b.setWidth 32 <<< 8 ||| c.setWidth 32 <<< 4 ||| d.setWidth 32
  | .xorb m => m.setWidth 32
  | .valid | .ovfchk | .ldkn | .init | .colr | .diagr | .dround | .ffadd | .ser | .block | .wipe | .ctrinc | .ret
  | .xform => 0

/-- The encoder: opcode in bits 31:24, operand field below (R60, R61). -/
def encode (i : Instr) : Word := i.op.setWidth 32 <<< 24 ||| i.operandField

/-- The instruction the decoder reads from a table word: bit 0 is `cw[0]`; a control word is one 32-bit word and lies in
no memory, so it has no byte order (R60). The bits from `nbits` up are zero. -/
def decodeTableWord (nbits w : Nat) : Option Instr :=
  match decode (BitVec.ofNat 32 (w % 2 ^ nbits)) with
  | .ok i => some i
  | .error _ => none

end Sys2Proof
end

