-- ==== Sys2Proof/Machine/State.lean ====
section
/-! DEFINITION. The state of the engine, its host interface, the data memory and the moves that wait on the host (10_state.md,
20_memory.md R40), the reasons a step can stop, and the state after reset (R26, R180). -/

namespace Sys2Proof.Machine

/-- PH, the phase: which control word is issued next (R17). Its number is `Phase.code`; 12 to 15 never occur. -/
inductive Phase where
  | idle | valid | ovf | load | init | qr | ffadd | ser | xor | inc | wipe | ret
  deriving DecidableEq, Repr

/-- The five exceptions (60_exceptions.md R150). -/
inductive Exc where
  | lengthMismatch | invalidNonceLength | invalidKeyLength | invalidRoundCount | counterOverflow
  deriving DecidableEq, Repr

/-- RESULT, the outcome of a command (R23): `None`, `Ok(c)` or `Err(e)`. -/
inductive Result where
  | none
  | ok (c : Word)
  | err (e : Exc)
  deriving DecidableEq, Repr

/-- The names of descriptor registers 0 to 9, in the order of their numbers (R19). -/
inductive DescReg where
  | outAddr | outLen | inAddr | inLen | nonceAddr | nonceLen | keyAddr | keyLen | counter | rounds
  deriving DecidableEq, Repr

/-- The thirteen registers of the host interface (R19). -/
inductive HostReg where
  /-- Registers 0 to 9. -/
  | desc (r : DescReg)
  /-- Register 10, CTRL: write only, no storage (R21). -/
  | ctrl
  /-- Register 11, STATUS: read only, a view (R22). -/
  | status
  /-- Register 12, CTR_OUT: read only, a view (R23). -/
  | ctrOut
  deriving DecidableEq, Repr

/-- The contents of descriptor registers 0 to 9, the operands of one command (R19). Address and length registers hold
naturals (R5), bounded by ADDR_BITS and LEN_BITS at the host's write; COUNTER and ROUNDS are 32 bits wide. -/
structure Descriptor where
  outAddr : Nat
  outLen : Nat
  inAddr : Nat
  inLen : Nat
  nonceAddr : Nat
  nonceLen : Nat
  keyAddr : Nat
  keyLen : Nat
  counter : Word
  rounds : Word
  deriving DecidableEq, Repr

/-- Kinds of a memory access (R44). -/
inductive Access where
  | read | write
  deriving DecidableEq, Repr

/-- A region `[base, base + size)` where the platform's memory does not accept one kind of access (R48; log 13). -/
structure Region where
  base : Nat
  size : Nat
  kind : Access
  deriving DecidableEq, Repr

/-- The data memory: address and byte, in the canonical form `Memory.wf` (R40; log 2). -/
abbrev Memory := List Host.Cell

/-- The moves of the host (R8, R183), and two words that say the turn is the engine's (log 5). -/
inductive HostMove where
  /-- Write a register of the host interface; CTRL with bit 0 = 1 is START (R20, R21). -/
  | write (r : HostReg) (v : Nat)
  /-- Read a register of the host interface into `State.readData` (R25). -/
  | read (r : HostReg)
  /-- Write one byte of data memory (R183). -/
  | memWrite (a : Nat) (v : Byte)
  /-- Read one byte of data memory into `State.readData` (R183). -/
  | memRead (a : Nat)
  /-- Reset the engine; if an XORB is the word in progress, its first `k` bytes have been written (R180, R181; log 14). -/
  | reset (k : Nat)
  /-- The host does nothing while the engine takes one step. -/
  | wait
  /-- The host waits until the engine is idle: it polls STATUS until DONE (R160; log 5). -/
  | await
  /-- The end of an `encrypt` call: poll until DONE, then "on Ok(c) return c; on Err(e) fail with e" (R70; log 26). -/
  | returnCounter
  /-- The end of a `decrypt` call: poll until DONE, then "discard the returned counter", or fail (R70; log 26). -/
  | returnVoid
  /-- A call fails before it starts a command: the length check of `decrypt` (R70; log 26). -/
  | fail (e : Exc)
  deriving DecidableEq, Repr

/-- What the host's last `encrypt` or `decrypt` call returned to its caller (R70; log 26). -/
inductive CallReturn where
  /-- No call has returned. -/
  | none
  /-- `encrypt` returned the counter. -/
  | counter (c : Word)
  /-- `decrypt` returned. -/
  | void
  /-- The call failed. -/
  | failed (e : Exc)
  deriving DecidableEq, Repr

/-- The whole state. Fields named after the spec's registers; the last five are the model's own (log 4, 5, 6, 20, 26). -/
structure State where
  /-- X[0..15], the working state (R10). -/
  x : Vector Word 16
  /-- S[0..15], the original state of the block (R11). -/
  saved : Vector Word 16
  /-- KS[0..63], the keystream block (R12). -/
  ks : Vector Byte 64
  /-- K[0..7], the key words (R13). -/
  k : Vector Word 8
  /-- N[0..2], the nonce words (R13). -/
  n : Vector Word 3
  /-- CTR (R14). -/
  ctr : Word
  /-- PC.PH (R17). -/
  ph : Phase
  /-- PC.BLK (R16, R17). -/
  blk : Word
  /-- PC.DR (R16, R17). -/
  dr : BitVec 4
  /-- PC.QI (R16, R17). -/
  qi : BitVec 3
  /-- NBLK (R15). -/
  nblk : Word
  /-- Descriptor registers 0 to 9 (R19). -/
  desc : Descriptor
  /-- Which descriptor registers the host has written since reset, by register number (R20, R26). -/
  written : Vector Bool 10
  /-- RESULT (R23). -/
  result : Result
  /-- The data memory (R40). -/
  mem : Memory
  /-- Where the platform's memory does not accept an access (R48). -/
  rejects : List Region
  /-- ADDR_BITS and LEN_BITS (R5). -/
  params : Config.Params
  /-- The host's moves to come, oldest first. -/
  host : List HostMove
  /-- The control words of a listing still to run, first first (R72). -/
  listing : List Word
  /-- What the host's last read returned. -/
  readData : Nat
  /-- What the host's last `encrypt` or `decrypt` call returned (R70). -/
  returned : CallReturn
  /-- How many free values have been drawn. -/
  fresh : Nat
  deriving DecidableEq, Repr

/-- The machine stops: it has no step. -/
inductive Fault where
  /-- Raised by LDKN and XORB as words of a listing and by the host's memory moves: an address outside `0 … 2^ADDR_BITS − 1`,
  which the spec says does not exist (R40). Safe. -/
  | noSuchAddress (a : Nat)
  /-- Raised by LDKN, XORB, XFORM and the host's memory moves: the platform's memory does not accept the access; "the model has
  no step for it (the engine is stuck)" (R48). Safe: "errs toward unprovable". -/
  | memoryRejects (kind : Access) (a : Nat)
  deriving DecidableEq, Repr

/-- The model gives no meaning. -/
inductive Refusal where
  /-- Raised by `exec` alone, for an instruction without a meaning yet (none is left). Safe. -/
  | notModelled (mnemonic : String)
  /-- Raised by a listing step: the listing holds a word that selects no row (R65 "a model refuses a program (a listing) that
  contains one"). Safe. -/
  | illegalWord (cw : Word)
  /-- Raised by QR and XORB on operands no legal word has (R62, R63, R65); no decoded word reaches it. Safe. -/
  | illegalOperands
  /-- Raised by BLOCK when ROUNDS is not 8, 12 or 20 (R97 "require ROUNDS in {8, 12, 20}", R69). Safe (log 10). -/
  | blockRounds
  /-- Raised by BLOCK when X ≠ S (R97 "require … X[j] = S[j] for all j"). Safe (log 9). -/
  | blockNotInitialised
  /-- Raised by START, by a busy engine, by XORB and by XFORM: input and output overlap at different offsets (R45). Safe. -/
  | inputOutputOverlap
  /-- Raised by START, by a busy engine and by XFORM: the output range overlaps the key range (R46). Safe. -/
  | outputOverKey
  /-- Raised by START, by a busy engine and by XFORM: the output range overlaps the nonce range (R46). Safe. -/
  | outputOverNonce
  /-- Raised by START, by a busy engine and by XFORM: the buffer with this address register wraps the top of the address
  space (R47). Safe. -/
  | bufferWraps (r : DescReg)
  /-- Raised by START: this descriptor register holds no value (R182). Safe. -/
  | startUnwritten (r : DescReg)
  /-- Raised by a host move that R189 and R19 allow in IDLE only. Safe. -/
  | hostMoveWhileBusy
  /-- Raised by a host memory move on a buffer of a busy command (R50, R183). Safe. -/
  | bufferInUse (a : Nat)
  /-- Raised by a host read of CTRL: "CTRL reads as nothing: it is write-only" (R21). Safe. -/
  | writeOnlyRegister
  /-- Raised by a host write of STATUS or CTR_OUT, which are read only (R22, R19). Safe. -/
  | readOnlyRegister (r : HostReg)
  /-- Raised by the sequencer in a state no command reaches: P_XOR where R123 gives no byte count from 1 to 64. Safe (log 19). -/
  | noWordToIssue
  deriving DecidableEq, Repr

/-- Descriptor registers at reset: "hold no value" (R26). DESIGN CHOICE (log 3): 0 each; `written` says that none is
written, so START is refused and a host read gives a free value. Unsafe for a listing that reads one. -/
def Descriptor.reset : Descriptor where
  outAddr := 0
  outLen := 0
  inAddr := 0
  inLen := 0
  nonceAddr := 0
  nonceLen := 0
  keyAddr := 0
  keyLen := 0
  counter := 0
  rounds := 0

/-- The machine right after reset (R26, R180). The data memory lists nothing (log 2), the platform rejects nothing
(log 13), no host move and no listing waits (log 5, log 6). -/
def State.reset : State where
  x := Vector.replicate 16 0
  saved := Vector.replicate 16 0
  ks := Vector.replicate 64 0
  k := Vector.replicate 8 0
  n := Vector.replicate 3 0
  ctr := 0
  ph := .idle
  blk := 0
  dr := 0
  qi := 0
  nblk := 0
  desc := Descriptor.reset
  written := Vector.replicate 10 false
  result := .none
  mem := []
  rejects := []
  params := Config.resetParams
  host := []
  listing := []
  readData := 0
  returned := .none
  fresh := 0

end Sys2Proof.Machine
end

