-- ==== Sys2Proof/Machine/Flags.lean ====
section
/-! DEFINITION. The engine has no flags (R18). What stands in their place is STATUS, "a view of PH and of the abstract result"
(R22), and CTR_OUT, a view of RESULT (R23); the codes of R17 and R150 are here too. -/

namespace Sys2Proof.Machine

/-- The number of a phase (R17). -/
def Phase.code : Phase → BitVec 4
  | .idle => 0
  | .valid => 1
  | .ovf => 2
  | .load => 3
  | .init => 4
  | .qr => 5
  | .ffadd => 6
  | .ser => 7
  | .xor => 8
  | .inc => 9
  | .wipe => 10
  | .ret => 11

/-- ECODE of an exception (R150). -/
def Exc.code : Exc → BitVec 4
  | .lengthMismatch => 1
  | .invalidNonceLength => 2
  | .invalidKeyLength => 3
  | .invalidRoundCount => 4
  | .counterOverflow => 5

/-- BUSY, "1 exactly when PH ≠ IDLE" (R22). -/
def State.busy (s : State) : Bool := s.ph != .idle

/-- DONE: a command has ended and no START has followed (R22); `None` ⇔ DONE = 0 (R23). -/
def State.done (s : State) : Bool :=
  match s.result with
  | .none => false
  | .ok _ => true
  | .err _ => true

/-- ERR: the last ended command ended by a trap (R22, R23). -/
def State.errBit (s : State) : Bool :=
  match s.result with
  | .none => false
  | .ok _ => false
  | .err _ => true

/-- ECODE, "the exception code … when ERR = 1; 0 when ERR = 0" (R22). -/
def State.ecode (s : State) : BitVec 4 :=
  match s.result with
  | .none => 0
  | .ok _ => 0
  | .err e => e.code

/-- STATUS: ECODE in bits 7:4, bit 3 reserved and 0, ERR bit 2, DONE bit 1, BUSY bit 0 (R22). -/
def State.statusByte (s : State) : Byte :=
  s.ecode ++ 0#1 ++ BitVec.ofBool s.errBit ++ BitVec.ofBool s.done ++ BitVec.ofBool s.busy

/-- CTR_OUT: `c` after `Ok(c)`, "in every other case … CTR_OUT holds no value" (R23). While a command runs RESULT is
`None` (R110), so it holds none then. -/
def State.ctrOut? (s : State) : Option Word :=
  match s.result with
  | .none => none
  | .ok c => some c
  | .err _ => none

end Sys2Proof.Machine
end

