-- ==== Sys2Proof/Machine/Memory.lean ====
section
/-! DEFINITION. The data memory (20_memory.md): one byte read and written, which accesses the platform accepts, and the legal
ranges of a command (R45 to R47). -/

namespace Sys2Proof.Machine

/-- What an address reads as that the memory does not list. DESIGN CHOICE (log 2): the spec gives the data memory no contents
("belongs to the platform", R26). Unsafe. -/
def blankByte : Byte := 0

/-- The canonical form: addresses strictly rising, no entry equal to what an unlisted address reads as. -/
abbrev Memory.wf (m : Memory) : Prop :=
  m.Pairwise (fun p q => p.1 < q.1) ∧ ∀ p ∈ m, p.2 ≠ blankByte

/-- `MemRead(a, 1)` (R44): the byte at `a`. -/
def memByte : Memory → Nat → Byte
  | [], _ => blankByte
  | (b, v) :: rest, a => if a = b then v else memByte rest a

/-- `MemWrite(a, 1, v)` (R44), keeping the canonical form. -/
def memStore : Memory → Nat → Byte → Memory
  | [], a, v => if v = blankByte then [] else [(a, v)]
  | (b, w) :: rest, a, v =>
    if a < b then (if v = blankByte then (b, w) :: rest else (a, v) :: (b, w) :: rest)
    else if a = b then (if v = blankByte then rest else (a, v) :: rest)
    else (b, w) :: memStore rest a v

/-- The region denies this access (R48). -/
def Region.denies (r : Region) (kind : Access) (a : Nat) : Bool :=
  r.kind == kind && r.base ≤ a && a < r.base + r.size

/-- Why one byte access cannot be made: no such address (R40), or the platform's memory does not accept it (R48). -/
def accessFault (s : State) (kind : Access) (a : Nat) : Option Fault :=
  if 2 ^ s.params.addrBits ≤ a then some (.noSuchAddress a)
  else if s.rejects.any (fun r => r.denies kind a) then some (.memoryRejects kind a)
  else none

/-- The first access, in the order they are made, that cannot be made. A fault carries no state, so the accesses before it
leave nothing to see (log 13). -/
def firstFault (s : State) : List (Access × Nat) → Option Fault
  | [] => none
  | (kind, a) :: rest =>
    match accessFault s kind a with
    | some f => some f
    | none => firstFault s rest

/-- `[a, a + n)` and `[b, b + m)` have an address in common. -/
def rangesMeet (a n b m : Nat) : Bool := 0 < n && 0 < m && a < b + m && b < a + n

/-- Input and output of `len` bytes overlap at different offsets (R45: defined "when L = 0, or I and O are disjoint, or
IN_ADDR = OUT_ADDR"). -/
def overlapsPartially (inA outA len : Nat) : Bool := inA != outA && rangesMeet inA len outA len

/-- Why a command's buffers are illegal: a wrap of the address space (R47), a partial overlap of input and output (R45), the
output over the key or the nonce (R46). -/
def rangeRefusal (s : State) : Option Refusal :=
  let d := s.desc
  let top := 2 ^ s.params.addrBits
  if top < d.outAddr + d.outLen then some (.bufferWraps .outAddr)
  else if top < d.inAddr + d.inLen then some (.bufferWraps .inAddr)
  else if top < d.nonceAddr + d.nonceLen then some (.bufferWraps .nonceAddr)
  else if top < d.keyAddr + d.keyLen then some (.bufferWraps .keyAddr)
  else if overlapsPartially d.inAddr d.outAddr d.inLen then some .inputOutputOverlap
  else if rangesMeet d.outAddr d.inLen d.keyAddr Config.keySize then some .outputOverKey
  else if rangesMeet d.outAddr d.inLen d.nonceAddr Config.nonceSize then some .outputOverNonce
  else none

end Sys2Proof.Machine
end

