-- ==== Sys2Proof/Machine/Operands.lean ====
section
/-! DEFINITION. Operand forms: the index fields of format Q (R62), the tuple a quarter-round is issued with (R71), the byte
count of a block (R123), the descriptor registers by name and number (R19), and the legal round counts (R66). -/

namespace Sys2Proof.Machine

/-- A format Q index field "used directly as an index into X[0..15]" (R62). -/
def wordIndex (i : BitVec 4) : Fin 16 := i.toFin

/-- `QR` with `TUPLE[QI]` (R71, R115). -/
def tupleInstr (qi : BitVec 3) : Instr :=
  let t := Config.tuples.getD qi.toNat (0, 4, 8, 12)
  .qr t.1 t.2.1 t.2.2.1 t.2.2.2

/-- The legal round counts {8, 12, 20} (R66). -/
def legalRounds (r : Word) : Bool := r == 8 || r == 12 || r == 20

/-- The number of double-rounds, `ROUNDS / 2` (R94). -/
def doubleRoundCount (r : Word) : Nat := r.toNat / 2

/-- `n = ceil(input.length / 64)` on naturals (R112). -/
def blockCount (len : Nat) : Nat := (len + 63) / Config.blockSize

/-- The byte count `m` of block BLK (R123): 64 before the last block, `IN_LEN − 64·(NBLK − 1)` for the last. -/
def blockBytes (s : State) : Nat :=
  if s.blk.toNat + 1 < s.nblk.toNat then Config.blockSize
  else s.desc.inLen - Config.blockSize * (s.nblk.toNat - 1)

/-- The number of a descriptor register (R19). -/
def DescReg.number : DescReg → Fin 10
  | .outAddr => 0
  | .outLen => 1
  | .inAddr => 2
  | .inLen => 3
  | .nonceAddr => 4
  | .nonceLen => 5
  | .keyAddr => 6
  | .keyLen => 7
  | .counter => 8
  | .rounds => 9

/-- The number of a register of the host interface (R19). -/
def HostReg.number : HostReg → Nat
  | .desc r => r.number.val
  | .ctrl => 10
  | .status => 11
  | .ctrOut => 12

/-- The ten descriptor registers in the order of their numbers (R19). -/
def allDescRegs : List DescReg :=
  [.outAddr, .outLen, .inAddr, .inLen, .nonceAddr, .nonceLen, .keyAddr, .keyLen, .counter, .rounds]

/-- The width of a descriptor register (R19). -/
def DescReg.width (p : Config.Params) : DescReg → Nat
  | .outAddr => p.addrBits
  | .outLen => p.lenBits
  | .inAddr => p.addrBits
  | .inLen => p.lenBits
  | .nonceAddr => p.addrBits
  | .nonceLen => p.lenBits
  | .keyAddr => p.addrBits
  | .keyLen => p.lenBits
  | .counter => 32
  | .rounds => 32

/-- The value a descriptor register holds (R19). -/
def Descriptor.get (d : Descriptor) : DescReg → Nat
  | .outAddr => d.outAddr
  | .outLen => d.outLen
  | .inAddr => d.inAddr
  | .inLen => d.inLen
  | .nonceAddr => d.nonceAddr
  | .nonceLen => d.nonceLen
  | .keyAddr => d.keyAddr
  | .keyLen => d.keyLen
  | .counter => d.counter.toNat
  | .rounds => d.rounds.toNat

/-- The descriptor with one register written (R20). -/
def Descriptor.set (d : Descriptor) (r : DescReg) (v : Nat) : Descriptor :=
  match r with
  | .outAddr => { d with outAddr := v }
  | .outLen => { d with outLen := v }
  | .inAddr => { d with inAddr := v }
  | .inLen => { d with inLen := v }
  | .nonceAddr => { d with nonceAddr := v }
  | .nonceLen => { d with nonceLen := v }
  | .keyAddr => { d with keyAddr := v }
  | .keyLen => { d with keyLen := v }
  | .counter => { d with counter := BitVec.ofNat 32 v }
  | .rounds => { d with rounds := BitVec.ofNat 32 v }

/-- The register holds a value: the host has written it since reset (R20, R26). -/
def State.isWritten (s : State) (r : DescReg) : Bool := s.written[r.number]

end Sys2Proof.Machine
end

