-- ==== Sys2Proof/Machine/Ops.lean ====
section
/-! DEFINITION. The shared operations the meanings are made of: words and bytes (R6, R7), the permutation network (R90 to R96),
the key and nonce latch (R80), the initial state (R81), the overlay of one block (R140), the wipe (R141), the start of a
command (R110), its trap (R157) and its regular end (R114). -/

namespace Sys2Proof.Machine

/-- Go on with the next state, or stop as before. -/
def andThen (o : Host.Outcome State Fault Refusal) (f : State → Host.Outcome State Fault Refusal) :
    Host.Outcome State Fault Refusal :=
  match o with
  | .next s => f s
  | .fault r => .fault r
  | .refused r => .refused r

/-! ### Words and bytes -/

/-- `rotl(a, n)`, the 32-bit left rotation (R6). -/
def rotl (a : Word) (n : Nat) : Word := a.rotateLeft n

/-- `le32(b0, b1, b2, b3)`: the first byte is the least significant (R7). -/
def le32 (b0 b1 b2 b3 : Byte) : Word :=
  b0.setWidth 32 ||| b1.setWidth 32 <<< 8 ||| b2.setWidth 32 <<< 16 ||| b3.setWidth 32 <<< 24

/-- `byte_k(w)` (R7). -/
def byteOf (k : Nat) (w : Word) : Byte := w.extractLsb' (8 * k) 8

/-! ### The permutation network -/

/-- One line of the quarter-round's pseudocode (R90), on its three words: `x += y; z ^= x; z = rotl(z, n)`; the new `x`
and the new `z`. -/
def mixLine (x y z : Word) (n : Nat) : Word × Word :=
  let x' := x + y
  (x', rotl (z ^^^ x') n)

/-- `QRV(a, b, c, d)`, "the four words the pseudocode leaves, given the four it found" (R90). -/
def quarterRoundValues (a b c d : Word) : Word × Word × Word × Word :=
  let (a, d) := mixLine a b d 16
  let (c, b) := mixLine c d b 12
  let (a, d) := mixLine a b d 8
  let (c, b) := mixLine c d b 7
  (a, b, c, d)

/-- The quarter-round on registers `X[a], X[b], X[c], X[d]` (R90); the four indices of a legal tuple differ. -/
def quarterRound (a b c d : Fin 16) (x : Vector Word 16) : Vector Word 16 :=
  let q := quarterRoundValues x[a] x[b] x[c] x[d]
  (((x.set a q.1).set b q.2.1).set c q.2.2.1).set d q.2.2.2

/-- The column round (R91). -/
def columnRound (x : Vector Word 16) : Vector Word 16 :=
  quarterRound 3 7 11 15 (quarterRound 2 6 10 14 (quarterRound 1 5 9 13 (quarterRound 0 4 8 12 x)))

/-- The diagonal round (R92). -/
def diagonalRound (x : Vector Word 16) : Vector Word 16 :=
  quarterRound 3 4 9 14 (quarterRound 2 7 8 13 (quarterRound 1 6 11 12 (quarterRound 0 5 10 15 x)))

/-- The double-round: "the column round first, then the diagonal round" (R93). -/
def doubleRound (x : Vector Word 16) : Vector Word 16 := diagonalRound (columnRound x)

/-- A number of double-rounds one after another (R94, R97). -/
def doubleRounds : Nat → Vector Word 16 → Vector Word 16
  | 0, x => x
  | r + 1, x => doubleRounds r (doubleRound x)

/-- The feed-forward `X[j] + S[j]`, modulo 2^32, lane by lane (R95). -/
def feedForward (x saved : Vector Word 16) : Vector Word 16 :=
  Vector.ofFn fun j => x[j] + saved[j]

/-- The keystream block `KS[4j + k] = byte_k(X[j])` (R96). -/
def serialise (x : Vector Word 16) : Vector Byte 64 :=
  Vector.ofFn fun i => byteOf (i.val % 4) (x[i.val / 4]'(by have := i.isLt; omega))

/-- The state of one block: four constants, eight key words, the counter, three nonce words (R81). -/
def initialWords (k : Vector Word 8) (n : Vector Word 3) (ctr : Word) : Vector Word 16 :=
  #v[0x61707865, 0x3320646e, 0x79622d32, 0x6b206574,
     k[0], k[1], k[2], k[3], k[4], k[5], k[6], k[7],
     ctr, n[0], n[1], n[2]]

/-! ### The State Initializer -/

/-- The word at `a … a + 3` of data memory, least significant byte first (R42, R80). -/
def memWord (m : Memory) (a : Nat) : Word :=
  le32 (memByte m a) (memByte m (a + 1)) (memByte m (a + 2)) (memByte m (a + 3))

/-- The reads of `len` bytes from `base` up, ascending (R49). -/
def readsOf (base len : Nat) : List (Access × Nat) := (List.range len).map fun j => (.read, base + j)

/-- The 44 reads of LDKN: 32 key bytes, then 12 nonce bytes (R44, R49). -/
def loadAccesses (s : State) : List (Access × Nat) :=
  readsOf s.desc.keyAddr Config.keySize ++ readsOf s.desc.nonceAddr Config.nonceSize

/-- The key and nonce words latched from memory (R80). -/
def latchWords (s : State) : State :=
  { s with
    k := Vector.ofFn fun i => memWord s.mem (s.desc.keyAddr + 4 * i.val)
    n := Vector.ofFn fun i => memWord s.mem (s.desc.nonceAddr + 4 * i.val) }

/-- LDKN's operation: 44 reads, then the latch (R80). -/
def loadKeyNonce (s : State) : Host.Outcome State Fault Refusal :=
  match firstFault s (loadAccesses s) with
  | some f => .fault f
  | none => .next (latchWords s)

/-- INIT's operation: S and X from K, CTR and N; DR and QI to 0 (R81). -/
def initialise (s : State) : State :=
  { s with
    saved := initialWords s.k s.n s.ctr
    x := initialWords s.k s.n s.ctr
    dr := 0
    qi := 0 }

/-! ### The Block Transform -/

/-- Change X alone. -/
def State.mapX (s : State) (f : Vector Word 16 → Vector Word 16) : State := { s with x := f s.x }

/-- FFADD's operation (R95). -/
def addSaved (s : State) : State := s.mapX fun x => feedForward x s.saved

/-- SER's operation (R96). -/
def serialiseX (s : State) : State := { s with ks := serialise s.x }

/-- BLOCK's expansion: `ROUNDS / 2` double-rounds, FFADD, SER (R69, R97). -/
def transformBlock (s : State) : State :=
  serialiseX (addSaved (s.mapX (doubleRounds (doubleRoundCount s.desc.rounds))))

/-! ### The XOR Overlay -/

/-- The address of byte `j` of the current block in the input buffer (R140). -/
def inByteAddr (s : State) (j : Nat) : Nat := s.desc.inAddr + Config.blockSize * s.blk.toNat + j

/-- The address of byte `j` of the current block in the output buffer (R140). -/
def outByteAddr (s : State) (j : Nat) : Nat := s.desc.outAddr + Config.blockSize * s.blk.toNat + j

/-- The accesses of `XORB m`, ascending, each read before its write (R49, R140). -/
def overlayAccesses (s : State) (m : Nat) : List (Access × Nat) :=
  (List.range m).flatMap fun j => [(.read, inByteAddr s j), (.write, outByteAddr s j)]

/-- The memory after the first `m` bytes of the overlay, ascending: each byte is read from the memory the bytes before it
left (R49, R140). -/
def overlayMem (s : State) : Nat → Memory
  | 0 => s.mem
  | j + 1 =>
    let mem := overlayMem s j
    memStore mem (outByteAddr s j) (memByte mem (inByteAddr s j) ^^^ s.ks.getD j 0)

/-- Why the model refuses the overlay (R140 corner case (v), R45): the command's input and output overlap partially, or the
`m` bytes this word reads and writes do (log 8). -/
def overlayRefusal (s : State) (m : Nat) : Option Refusal :=
  if overlapsPartially s.desc.inAddr s.desc.outAddr s.desc.inLen
      || overlapsPartially (inByteAddr s 0) (outByteAddr s 0) m then some .inputOutputOverlap
  else none

/-- XORB's operation on `m` bytes (R140). -/
def overlay (m : Nat) (s : State) : Host.Outcome State Fault Refusal :=
  match overlayRefusal s m with
  | some r => .refused r
  | none =>
    match firstFault s (overlayAccesses s m) with
    | some f => .fault f
    | none => .next { s with mem := overlayMem s m }

/-- WIPE's operation: X, S, KS, K and N to zero (R141). -/
def wipeRegisters (s : State) : State :=
  { s with
    x := Vector.replicate 16 0
    saved := Vector.replicate 16 0
    ks := Vector.replicate 64 0
    k := Vector.replicate 8 0
    n := Vector.replicate 3 0 }

/-! ### The Keystream Sequencer -/

/-- START's effect on the state (R110). -/
def beginCommand (s : State) : State :=
  { s with
    result := .none
    ctr := s.desc.counter
    nblk := 0
    blk := 0
    dr := 0
    qi := 0
    ph := .valid }

/-- THE TRAP, the one way an exception is taken (R157): the result is the error and the engine is idle; nothing is saved. -/
def takeTrap (e : Exc) (s : State) : State := { s with result := .err e, ph := .idle }

/-- The regular end of a command (R114). There is no return from a trap (R159). -/
def endCommand (s : State) : State := { s with result := .ok s.ctr, ph := .idle }

/-- The first of VALID's four checks that fails (R111, R156). -/
def entryError (d : Descriptor) : Option Exc :=
  if d.outLen ≠ d.inLen then some .lengthMismatch
  else if d.nonceLen ≠ Config.nonceSize then some .invalidNonceLength
  else if d.keyLen ≠ Config.keySize then some .invalidKeyLength
  else if !legalRounds d.rounds then some .invalidRoundCount
  else none

/-- OVFCHK's test, on naturals: `COUNTER + n > 2^32 − 1` (R112). -/
def counterOverflows (d : Descriptor) : Bool := Config.counterMax < d.counter.toNat + blockCount d.inLen

/-- OVFCHK's write of the block count (R112). -/
def setBlockCount (s : State) : State := { s with nblk := BitVec.ofNat 32 (blockCount s.desc.inLen) }

/-- CTRINC's operation, `(CTR + 1) mod 2^32` (R113). -/
def advanceCounter (s : State) : State := { s with ctr := s.ctr + 1 }

/-- The sequencer's `BLK <- BLK + 1` (R115). -/
def advanceBlock (s : State) : State := { s with blk := s.blk + 1 }

end Sys2Proof.Machine
end

