-- ==== Sys2Proof/Machine/Initializer.lean ====
section
/-! DEFINITION. The State Initializer: LDKN and INIT (40_state_initializer.md). -/

namespace Sys2Proof.Machine

/-- LDKN: K and N from the key and nonce buffers (R80). -/
def execLdkn (s : State) : Host.Outcome State Fault Refusal := loadKeyNonce s

/-- INIT: S, X, DR and QI (R81). -/
def execInit (s : State) : Host.Outcome State Fault Refusal := .next (initialise s)

end Sys2Proof.Machine
end

