-- ==== Sys2Proof/Machine/Overlay.lean ====
section
/-! DEFINITION. The XOR Overlay: XORB and WIPE (43_xor_overlay.md). -/

namespace Sys2Proof.Machine

/-- XORB m: `m` bytes of output are input XOR keystream (R140). `m = 0` and `m > 64` are no legal operand (R63, R65). -/
def execXorb (m : Byte) (s : State) : Host.Outcome State Fault Refusal :=
  if (Instr.xorb m).wf then overlay m.toNat s else .refused .illegalOperands

/-- WIPE: X, S, KS, K and N to zero (R141). -/
def execWipe (s : State) : Host.Outcome State Fault Refusal := .next (wipeRegisters s)

end Sys2Proof.Machine
end

