-- ==== Sys2Proof/Machine/Sequencer.lean ====
section
/-! DEFINITION. The sequencer's own words: VALID, OVFCHK, CTRINC, RET, and the big-step XFORM (42_keystream_sequencer.md). -/

namespace Sys2Proof.Machine

/-- VALID: the first of the four checks that fails takes the trap; otherwise nothing is written (R111). -/
def execValid (s : State) : Host.Outcome State Fault Refusal :=
  match entryError s.desc with
  | some e => .next (takeTrap e s)
  | none => .next s

/-- OVFCHK: the trap on a counter overflow, otherwise `NBLK <- n` (R112). -/
def execOvfchk (s : State) : Host.Outcome State Fault Refusal :=
  if counterOverflows s.desc then .next (takeTrap .counterOverflow s) else .next (setBlockCount s)

/-- CTRINC: `CTR <- (CTR + 1) mod 2^32` (R113). -/
def execCtrinc (s : State) : Host.Outcome State Fault Refusal := .next (advanceCounter s)

/-- RET: `RESULT <- Ok(CTR); PH <- IDLE` (R114). -/
def execRet (s : State) : Host.Outcome State Fault Refusal := .next (endCommand s)

/-- One turn of XFORM's loop (R116 lines 10 to 14): the block's keystream, its overlay, the counter. -/
def commandBlock (s : State) : Host.Outcome State Fault Refusal :=
  let s := transformBlock (initialise s)
  andThen (overlay (blockBytes s) s) fun s => .next (advanceBlock (advanceCounter s))

/-- XFORM's loop over the blocks that are left (R116 line 9). -/
def commandBlocks : Nat → State → Host.Outcome State Fault Refusal
  | 0, s => .next s
  | blocks + 1, s => andThen (commandBlock s) (commandBlocks blocks)

/-- XFORM's lines 8 to 16, once the five checks have passed (R116). -/
def commandBody (s : State) : Host.Outcome State Fault Refusal :=
  let blocks := blockCount s.desc.inLen
  andThen
    (if blocks = 0 then .next s else andThen (loadKeyNonce s) (commandBlocks blocks))
    fun s => .next (endCommand (wipeRegisters s))

/-- XFORM's lines 1 to 16 (R116): the five checks, then the body. -/
def runCommand (s : State) : Host.Outcome State Fault Refusal :=
  let s := beginCommand s
  match entryError s.desc with
  | some e => .next (takeTrap e s)
  | none =>
    if counterOverflows s.desc then .next (takeTrap .counterOverflow s)
    else commandBody (setBlockCount s)

/-- XFORM: the whole command as one big step from the descriptor (R116). "A command with illegal ranges has no meaning at all"
(R191; R45 to R47; log 7). Every register is left as running the sequencer from START to IDLE leaves it (R117; log 11,
log 12). -/
def execXform (s : State) : Host.Outcome State Fault Refusal :=
  match rangeRefusal s with
  | some r => .refused r
  | none => runCommand s

end Sys2Proof.Machine
end

