-- ==== Sys2Proof/Machine/Transform.lean ====
section
/-! DEFINITION. The Block Transform: QR, COLR, DIAGR, DROUND, FFADD, SER, BLOCK (41_block_transform.md). -/

namespace Sys2Proof.Machine

/-- QR a,b,c,d (R90). A tuple outside the eight "has no meaning" (R90 corner case (i), R65). -/
def execQr (a b c d : BitVec 4) (s : State) : Host.Outcome State Fault Refusal :=
  if (Instr.qr a b c d).wf then
    .next (s.mapX (quarterRound (wordIndex a) (wordIndex b) (wordIndex c) (wordIndex d)))
  else .refused .illegalOperands

/-- COLR: the column round (R91). -/
def execColr (s : State) : Host.Outcome State Fault Refusal := .next (s.mapX columnRound)

/-- DIAGR: the diagonal round (R92). -/
def execDiagr (s : State) : Host.Outcome State Fault Refusal := .next (s.mapX diagonalRound)

/-- DROUND: the double-round (R93). -/
def execDround (s : State) : Host.Outcome State Fault Refusal := .next (s.mapX doubleRound)

/-- FFADD: the feed-forward adder (R95). -/
def execFfadd (s : State) : Host.Outcome State Fault Refusal := .next (addSaved s)

/-- SER: the keystream block (R96). -/
def execSer (s : State) : Host.Outcome State Fault Refusal := .next (serialiseX s)

/-- BLOCK: "require ROUNDS in {8, 12, 20} and X[j] = S[j] for all j" (R97; log 9, log 10), then its expansion (R69). -/
def execBlock (s : State) : Host.Outcome State Fault Refusal :=
  if !legalRounds s.desc.rounds then .refused .blockRounds
  else if s.x ≠ s.saved then .refused .blockNotInitialised
  else .next (transformBlock s)

end Sys2Proof.Machine
end

