-- ==== Sys2Proof/Machine/Dispatch.lean ====
section
/-! DEFINITION. The meaning of each control word: its own effect, as its rule gives it (R64). -/

namespace Sys2Proof.Machine

def exec (i : Instr) (s : State) : Host.Outcome State Fault Refusal :=
  match i with
  | .valid => Sys2Proof.Machine.execValid s
  | .ovfchk => Sys2Proof.Machine.execOvfchk s
  | .ldkn => Sys2Proof.Machine.execLdkn s
  | .init => Sys2Proof.Machine.execInit s
  | .qr a b c d => Sys2Proof.Machine.execQr a b c d s
  | .colr => Sys2Proof.Machine.execColr s
  | .diagr => Sys2Proof.Machine.execDiagr s
  | .dround => Sys2Proof.Machine.execDround s
  | .ffadd => Sys2Proof.Machine.execFfadd s
  | .ser => Sys2Proof.Machine.execSer s
  | .block => Sys2Proof.Machine.execBlock s
  | .xorb m => Sys2Proof.Machine.execXorb m s
  | .wipe => Sys2Proof.Machine.execWipe s
  | .ctrinc => Sys2Proof.Machine.execCtrinc s
  | .ret => Sys2Proof.Machine.execRet s
  | .xform => Sys2Proof.Machine.execXform s

end Sys2Proof.Machine
end

