-- ==== Sys2Proof/Machine/Sequence.lean ====
section
/-! DEFINITION. The order of control words: which word each phase issues, and where PC goes after it (42_keystream_sequencer.md
R115); and the run of a listing of words on a register state (30_encoding.md R72). -/

namespace Sys2Proof.Machine

/-- The word of P_XOR: `XORB m` with R123's byte count, where R123 gives one from 1 to 64 (log 19). -/
def issuedOverlay (s : State) : Option Instr :=
  let m := blockBytes s
  if s.blk.toNat < s.nblk.toNat ∧ 1 ≤ m ∧ m ≤ Config.blockSize then some (.xorb (BitVec.ofNat 8 m)) else none

/-- The control word the sequencer issues (R115, second column). -/
def issue (s : State) : Option Instr :=
  match s.ph with
  | .idle => none
  | .valid => some .valid
  | .ovf => some .ovfchk
  | .load => some .ldkn
  | .init => some .init
  | .qr => some (tupleInstr s.qi)
  | .ffadd => some .ffadd
  | .ser => some .ser
  | .xor => issuedOverlay s
  | .inc => some .ctrinc
  | .wipe => some .wipe
  | .ret => some .ret

/-- The word on the sequencer's control output (R72). -/
def issuedWord (s : State) : Option Word := (issue s).map encode

/-- PC after a quarter-round (R115, row P_QR). -/
def advanceQr (s : State) : State :=
  if s.qi ≠ 7 then { s with qi := s.qi + 1 }
  else if s.dr.toNat + 1 = doubleRoundCount s.desc.rounds then { s with qi := 0, dr := 0, ph := .ffadd }
  else { s with qi := 0, dr := s.dr + 1 }

/-- PC after CTRINC (R115, row P_INC). -/
def advanceInc (s : State) : State :=
  if s.blk.toNat + 1 = s.nblk.toNat then { advanceBlock s with ph := .wipe } else { advanceBlock s with ph := .init }

/-- The next PC "after the word's own effect" (R115, third column). The trap and RET have already set IDLE, and an idle engine
stays. -/
def advance (s : State) : State :=
  match s.ph with
  | .idle => s
  | .valid => { s with ph := .ovf }
  | .ovf => if s.nblk = 0 then { s with ph := .wipe } else { s with ph := .load }
  | .load => { s with ph := .init }
  | .init => { s with ph := .qr }
  | .qr => advanceQr s
  | .ffadd => { s with ph := .ser }
  | .ser => { s with ph := .xor }
  | .xor => { s with ph := .inc }
  | .inc => advanceInc s
  | .wipe => { s with ph := .ret }
  | .ret => { s with ph := .idle }

/-- One step of the engine: an idle engine "stays IDLE until START"; a busy one executes the word of its phase and moves PC
(R115). A command with illegal ranges has no meaning at any phase (R45 to R47, R191; log 7); START begins none. -/
def engineStep (s : State) : Host.Outcome State Fault Refusal :=
  if s.ph = .idle then .next s
  else
    match rangeRefusal s with
    | some r => .refused r
    | none =>
      match issue s with
      | some i => andThen (exec i s) fun s' => .next (advance s')
      | none => .refused .noWordToIssue

/-- One step of a listing: its first word runs "directly on a given register state" (R72), its own effect and no move of PC
(95_test_vectors.md P1: "a bare listing does not move them"). A listing that holds an illegal word is refused (R65;
log 22). DESIGN CHOICE (log 25): a listing goes on after a word that raised; R117's "stop if it raised" is said of a
command. -/
def listingStep (s : State) : Host.Outcome State Fault Refusal :=
  match s.listing.find? fun w => !isLegalWord w with
  | some w => .refused (.illegalWord w)
  | none =>
    match s.listing with
    | [] => .next s
    | w :: rest =>
      match decode w with
      | .ok i => exec i { s with listing := rest }
      | .error _ => .refused (.illegalWord w)

end Sys2Proof.Machine
end

