-- ==== Sys2Proof/Machine/HostPort.lean ====
section
/-! DEFINITION. The moves of the host (10_state.md R19 to R25, 70_reset_and_hazards.md R180 to R183, R189), and whose turn a
step is. -/

namespace Sys2Proof.Machine

/-- The first descriptor register that holds no value (R182). -/
def firstUnwritten (s : State) : Option DescReg := allDescRegs.find? fun r => !s.isWritten r

/-- START: "PH = IDLE and all ten descriptor registers hold a value" (R110, R182), and "buffers must obey 20_memory.md rules
R45 to R48" (R183; log 7). -/
def startMove (s : State) : Host.Outcome State Fault Refusal :=
  match firstUnwritten s with
  | some r => .refused (.startUnwritten r)
  | none =>
    match rangeRefusal s with
    | some r => .refused r
    | none => .next (beginCommand s)

/-- A free value of `width` bits (log 4). -/
def freeBits (s : State) (width : Nat) : Nat := Config.freeValue s.fresh % 2 ^ width

/-- The next free value is another one (log 4). -/
def drawFree (s : State) : State := { s with fresh := s.fresh + 1 }

/-- A descriptor register holds a value (R19, R20). -/
def writeDescriptor (r : DescReg) (v : Nat) (s : State) : State :=
  { s with desc := s.desc.set r v, written := s.written.set r.number true }

/-- The host's write of a descriptor register, which "holds one unsigned number of the stated width" (R19). Which number it
holds after a write of a wider one, the spec does not say: a free value of the width (log 17). -/
def descriptorWrite (r : DescReg) (v : Nat) (s : State) : State :=
  let width := r.width s.params
  if v < 2 ^ width then writeDescriptor r v s else writeDescriptor r (freeBits s width) (drawFree s)

/-- A write of a register of the host interface: the descriptor and CTRL, in IDLE (R20, R21, R189). CTRL looks at bit 0 alone:
1 is START, 0 "has no effect" (R21; log 17). -/
def hostWrite (r : HostReg) (v : Nat) (s : State) : Host.Outcome State Fault Refusal :=
  match r with
  | .desc d => if s.busy then .refused .hostMoveWhileBusy else .next (descriptorWrite d v s)
  | .ctrl =>
    if s.busy then .refused .hostMoveWhileBusy
    else if v % 2 = 1 then startMove s
    else .next s
  | .status => .refused (.readOnlyRegister r)
  | .ctrOut => .refused (.readOnlyRegister r)

/-- A read that returns a known value. -/
def returnValue (v : Nat) (s : State) : State := { s with readData := v }

/-- A read to which the spec gives `any value`: a free value of the register's width (R23, R26; log 4). -/
def returnAny (width : Nat) (s : State) : State :=
  returnValue (freeBits s width) (drawFree s)

/-- A read of a register of the host interface: the descriptor in IDLE (R19), STATUS and CTR_OUT at any time (R22, R23,
R183); CTRL is write only (R21). -/
def hostRead (r : HostReg) (s : State) : Host.Outcome State Fault Refusal :=
  match r with
  | .desc d =>
    if s.busy then .refused .hostMoveWhileBusy
    else if s.isWritten d then .next (returnValue (s.desc.get d) s)
    else .next (returnAny (d.width s.params) s)
  | .ctrl => .refused .writeOnlyRegister
  | .status => .next (returnValue s.statusByte.toNat s)
  | .ctrOut =>
    match s.ctrOut? with
    | some c => .next (returnValue c.toNat s)
    | none => .next (returnAny 32 s)

/-- The address belongs to a buffer the host must leave alone while a command runs: the output for every access, the key, the
nonce and the input for writes (R50, R183). -/
def bufferHeld (s : State) (kind : Access) (a : Nat) : Bool :=
  let within (base len : Nat) : Bool := base ≤ a && a < base + len
  let d := s.desc
  s.busy &&
    (within d.outAddr d.outLen ||
      (kind == .write && (within d.inAddr d.inLen || within d.nonceAddr d.nonceLen || within d.keyAddr d.keyLen)))

/-- A host access to one byte of data memory goes on when no busy command holds the byte (R50) and the memory accepts the
access (R40, R48; log 13). -/
def hostAccess (kind : Access) (a : Nat) (s next : State) : Host.Outcome State Fault Refusal :=
  if bufferHeld s kind a then .refused (.bufferInUse a)
  else
    match accessFault s kind a with
    | some f => .fault f
    | none => .next next

/-- Every piece of engine state at its reset value (R26, R180). Data memory and the platform are not the engine's and are not
touched; the host goes on with its moves. -/
def resetEngine (s : State) : State :=
  { State.reset with
    mem := s.mem
    rejects := s.rejects
    params := s.params
    host := s.host
    listing := s.listing
    readData := s.readData
    returned := s.returned
    fresh := s.fresh }

/-- Reset (R180). While a command runs, the output holds "whatever bytes the XORB steps executed before the reset had
written (a prefix of whole and possibly one partly written block)" (R181): when an XORB of `m` bytes is the word in progress,
its first `min k m` bytes are written (log 14). -/
def resetMove (k : Nat) (s : State) : Host.Outcome State Fault Refusal :=
  match s.ph with
  | .xor =>
    let written := min k (min (blockBytes s) Config.blockSize)
    if written = 0 then .next (resetEngine s)
    else andThen (overlay written s) fun s => .next (resetEngine s)
  | .idle | .valid | .ovf | .load | .init | .qr | .ffadd | .ser | .inc | .wipe | .ret => .next (resetEngine s)

/-- The end of a wrapper's call (R70; log 26): poll STATUS until DONE, then return what `onOk` makes of the counter, or fail with
the error. While there is no result the host polls on: the engine's turn when it is busy, and nothing when it is idle. -/
def finishCall (onOk : Word → CallReturn) (rest : List HostMove) (s : State) : Host.Outcome State Fault Refusal :=
  if s.busy then engineStep s
  else
    match s.result with
    | .none => .next s
    | .ok c => .next { s with host := rest, returned := onOk c }
    | .err e => .next { s with host := rest, returned := .failed e }

/-- One move of the host; `wait` and `await` are the engine's turn (log 5). -/
def hostStep (move : HostMove) (rest : List HostMove) (s : State) : Host.Outcome State Fault Refusal :=
  let s' := { s with host := rest }
  match move with
  | .write r v => hostWrite r v s'
  | .read r => hostRead r s'
  | .memWrite a v => hostAccess .write a s' { s' with mem := memStore s'.mem a v }
  | .memRead a => hostAccess .read a s' (returnValue (memByte s'.mem a).toNat s')
  | .reset k => resetMove k s'
  | .wait => engineStep s'
  | .await => if s.busy then engineStep s else .next s'
  | .returnCounter => finishCall .counter rest s
  | .returnVoid => finishCall (fun _ => .void) rest s
  | .fail e => .next { s' with returned := .failed e }

/-- Whose turn it is: a listing that waits runs first (R72); then the host's next move; with no move, the engine. -/
def turn (s : State) : Host.Outcome State Fault Refusal :=
  match s.listing with
  | _ :: _ => listingStep s
  | [] =>
    match s.host with
    | move :: rest => hostStep move rest s
    | [] => engineStep s

/-- The state with one word placed as the listing (R72): the bits from `nbits` up are zero. -/
def placeWord (s : State) (nbits w : Nat) : State := { s with listing := [BitVec.ofNat 32 (w % 2 ^ nbits)] }

end Sys2Proof.Machine
end

