-- ==== Sys2Proof/Machine/Step.lean ====
section
/-! DEFINITION. One step of the machine, and how the host of this pipeline places a control word. -/

namespace Sys2Proof.Machine

/-- One step: the engine's, the host's or a listing's, by whose turn it is (R8, R115, R72). -/
def step (s : State) : Host.Outcome State Fault Refusal := turn s

/-- The engine fetches nothing from memory (R53); a word that is to run next is placed as a listing (R72; log 6). -/
def State.withFetchWord (s : State) (nbits w : Nat) : State := placeWord s nbits w

end Sys2Proof.Machine
end

