-- ==== Sys2Proof/Machine/Listing.lean ====
section
/-! DEFINITION. The listing syntax of control words (30_encoding.md R68): "the mnemonic in upper case, then the operands, if
any, as decimal numbers separated by commas, then an optional comment after `;`". -/

namespace Sys2Proof.Machine

/-- The mnemonic of each row (R64). -/
def mnemonicOf : Instr → String
  | .valid => "VALID"
  | .ovfchk => "OVFCHK"
  | .ldkn => "LDKN"
  | .init => "INIT"
  | .qr _ _ _ _ => "QR"
  | .colr => "COLR"
  | .diagr => "DIAGR"
  | .dround => "DROUND"
  | .ffadd => "FFADD"
  | .ser => "SER"
  | .block => "BLOCK"
  | .xorb _ => "XORB"
  | .wipe => "WIPE"
  | .ctrinc => "CTRINC"
  | .ret => "RET"
  | .xform => "XFORM"

/-- The operands in the order they are written (R68). -/
def operandsOf : Instr → List Nat
  | .qr a b c d => [a.toNat, b.toNat, c.toNat, d.toNat]
  | .xorb m => [m.toNat]
  | .valid | .ovfchk | .ldkn | .init | .colr | .diagr | .dround | .ffadd | .ser | .block | .wipe | .ctrinc | .ret
  | .xform => []

/-- The rows without an operand, by their opcode's order (R64). -/
def plainWords : List Instr :=
  [.valid, .ovfchk, .ldkn, .init, .colr, .diagr, .dround, .ffadd, .ser, .block, .wipe, .ctrinc, .ret, .xform]

/-- A number in decimal (R68). -/
def decimalText (n : Nat) : List Char := Nat.toDigits 10 n

/-- The operands as decimal numbers separated by commas (R68). -/
def operandText : List Nat → List Char
  | [] => []
  | [n] => decimalText n
  | n :: m :: rest => decimalText n ++ ',' :: operandText (m :: rest)

/-- The line of a listing that an instruction is written as (R68). -/
def listingLine (i : Instr) : String :=
  match operandsOf i with
  | [] => mnemonicOf i
  | n :: rest => mnemonicOf i ++ String.ofList (' ' :: operandText (n :: rest))

/-- The instruction of a mnemonic and its operands, where it is a legal one. -/
def assemble (mnemonic : String) (operands : List Nat) : Option Instr :=
  match operands with
  | [] => plainWords.find? fun i => mnemonicOf i == mnemonic
  | [m] => if mnemonic = "XORB" ∧ 1 ≤ m ∧ m ≤ Config.blockSize then some (.xorb (BitVec.ofNat 8 m)) else none
  | [a, b, c, d] =>
    let i := Instr.qr (BitVec.ofNat 4 a) (BitVec.ofNat 4 b) (BitVec.ofNat 4 c) (BitVec.ofNat 4 d)
    if mnemonic = "QR" ∧ a < 16 ∧ b < 16 ∧ c < 16 ∧ d < 16 ∧ i.wf then some i else none
  | _ => none

/-- A decimal number. -/
def decimal (digits : List Char) : Option Nat :=
  if digits.isEmpty then none
  else digits.foldl (fun acc c => acc.bind fun v => if c.isDigit then some (10 * v + (c.toNat - 48)) else none) (some 0)

/-- The characters cut at every `c`. -/
def cutAt (c : Char) : List Char → List (List Char)
  | [] => [[]]
  | h :: rest =>
    match cutAt c rest with
    | [] => [[h]]
    | piece :: pieces => if h = c then [] :: piece :: pieces else (h :: piece) :: pieces

/-- One line of a listing (R68): the comment dropped, then a mnemonic, then at most one group of operands. -/
def assembleLine (line : String) : Option Instr :=
  match (cutAt ' ' (line.toList.takeWhile fun c => c != ';')).filter fun piece => !piece.isEmpty with
  | [name] => assemble (String.ofList name) []
  | [name, group] =>
    match (cutAt ',' group).mapM decimal with
    | some operands => assemble (String.ofList name) operands
    | none => none
  | _ => none

/-- The words of a listing, one line each (R68). -/
def assembleListing (lines : List String) : Option (List Word) :=
  (lines.mapM assembleLine).map fun is => is.map encode

end Sys2Proof.Machine
end

