-- ==== Sys2Proof/Machine/Wrappers.lean ====
section
/-! DEFINITION. The host-level pseudo-operations: `encrypt` and `decrypt` of ChaCha8, ChaCha12 and ChaCha20 as moves of the host
(30_encoding.md R70, 42_keystream_sequencer.md R122). The constants they expose, one set for every variant, are
`Config.keySize`, `Config.nonceSize` and `Config.blockSize`. -/

namespace Sys2Proof.Machine

/-- The three ciphers (R1, R66). -/
inductive Variant where
  | chaCha8 | chaCha12 | chaCha20
  deriving DecidableEq, Repr

/-- The round count a variant's wrappers fix (R66, R70). -/
def Variant.rounds : Variant → Word
  | .chaCha8 => 8
  | .chaCha12 => 12
  | .chaCha20 => 20

/-- A buffer of a call: address and length in bytes (R41). -/
structure Buffer where
  addr : Nat
  len : Nat
  deriving DecidableEq, Repr

/-- The four buffers of a call, in the order of the wrappers' operands (R70). -/
structure CallBuffers where
  output : Buffer
  input : Buffer
  nonce : Buffer
  key : Buffer
  deriving DecidableEq, Repr

/-- The descriptor of one call (R70, R19). -/
def callDescriptor (v : Variant) (b : CallBuffers) (counter : Word) : Descriptor where
  outAddr := b.output.addr
  outLen := b.output.len
  inAddr := b.input.addr
  inLen := b.input.len
  nonceAddr := b.nonce.addr
  nonceLen := b.nonce.len
  keyAddr := b.key.addr
  keyLen := b.key.len
  counter := counter
  rounds := v.rounds

/-- The ten writes that set a descriptor (R182). -/
def descriptorWrites (d : Descriptor) : List HostMove := allDescRegs.map fun r => .write (.desc r) (d.get r)

/-- The moves of a call up to START (R70). -/
def startMoves (d : Descriptor) : List HostMove := descriptorWrites d ++ [.write .ctrl 1]

/-- `encrypt(output, input, nonce, key, counter = 0) -> u32`: "write descriptor …; START; on Ok(c) return c; on Err(e) fail
with e" (R70). -/
def encryptMoves (v : Variant) (b : CallBuffers) (counter : Word := 0) : List HostMove :=
  startMoves (callDescriptor v b counter) ++ [.returnCounter]

/-- `decrypt(output, input, nonce, key, counter = 0) -> void`: "check output.length = input.length (else LengthMismatch); then
exactly the matching encrypt …; discard the returned counter" (R70). -/
def decryptMoves (v : Variant) (b : CallBuffers) (counter : Word := 0) : List HostMove :=
  if b.output.len ≠ b.input.len then [.fail .lengthMismatch]
  else startMoves (callDescriptor v b counter) ++ [.returnVoid]

end Sys2Proof.Machine
end

