-- ==== Sys2Proof/Safety.lean ====
section
/-! DEFINITION. What claims about the engine are stated in: the keystream as a pure function (R97, R101), what a command needs
to run (R182), the number of its control words (R117), and the invariant of the engine (R14, R15, R17, R22, R24). -/

namespace Sys2Proof.Safety

open Sys2Proof.Machine

/-- `Block(K, N, ctr, r)`: "the 64 bytes KS holds after INIT; BLOCK" (R97). -/
def keystreamBlock (k : Vector Word 8) (n : Vector Word 3) (ctr rounds : Word) : Vector Byte 64 :=
  let initial := initialWords k n ctr
  serialise (feedForward (doubleRounds (doubleRoundCount rounds) initial) initial)

/-- The key words of a command, from its key buffer (R42, R80). -/
def keyWords (s : State) : Vector Word 8 := Vector.ofFn fun i => memWord s.mem (s.desc.keyAddr + 4 * i.val)

/-- The nonce words of a command, from its nonce buffer (R42, R80). -/
def nonceWords (s : State) : Vector Word 3 := Vector.ofFn fun i => memWord s.mem (s.desc.nonceAddr + 4 * i.val)

/-- Keystream byte `j` of a command: byte `j mod 64` of the block whose counter is `COUNTER + j div 64` (R116). -/
def keystreamByte (s : State) (j : Nat) : Byte :=
  (keystreamBlock (keyWords s) (nonceWords s) (s.desc.counter + BitVec.ofNat 32 (j / 64)) s.desc.rounds).getD (j % 64) 0

/-- The five preconditions of a command (R182). -/
structure Accepted (d : Descriptor) : Prop where
  lengths : d.outLen = d.inLen
  nonce : d.nonceLen = 12
  key : d.keyLen = 32
  rounds : d.rounds = 8 ∨ d.rounds = 12 ∨ d.rounds = 20
  counter : d.counter.toNat + (d.inLen + 63) / 64 ≤ 2 ^ 32 - 1

/-- The ranges a command may have (R45 to R47): no wrap; input and output disjoint or in place; the output apart from key and
nonce. -/
structure LegalRanges (p : Config.Params) (d : Descriptor) : Prop where
  outFits : d.outAddr + d.outLen ≤ 2 ^ p.addrBits
  inFits : d.inAddr + d.inLen ≤ 2 ^ p.addrBits
  nonceFits : d.nonceAddr + d.nonceLen ≤ 2 ^ p.addrBits
  keyFits : d.keyAddr + d.keyLen ≤ 2 ^ p.addrBits
  inOut : d.inLen = 0 ∨ d.inAddr = d.outAddr ∨ d.inAddr + d.inLen ≤ d.outAddr
    ∨ d.outAddr + d.inLen ≤ d.inAddr
  outKey : d.inLen = 0 ∨ d.outAddr + d.inLen ≤ d.keyAddr ∨ d.keyAddr + 32 ≤ d.outAddr
  outNonce : d.inLen = 0 ∨ d.outAddr + d.inLen ≤ d.nonceAddr
    ∨ d.nonceAddr + 12 ≤ d.outAddr

/-- The memory accepts every access the command makes (R48): input, nonce and key read, output written. -/
structure MemoryAccepts (s : State) : Prop where
  input : ∀ j < s.desc.inLen, accessFault s .read (s.desc.inAddr + j) = none
  output : ∀ j < s.desc.inLen, accessFault s .write (s.desc.outAddr + j) = none
  key : ∀ j < 32, accessFault s .read (s.desc.keyAddr + j) = none
  nonce : ∀ j < 12, accessFault s .read (s.desc.nonceAddr + j) = none

/-- Nothing waits but the engine: no listing, no host move. -/
def EngineAlone (s : State) : Prop := s.listing = [] ∧ s.host = []

/-- "every word of X, S, K, N and every byte of KS is zero" (R24). -/
structure DatapathZero (s : State) : Prop where
  x : s.x = Vector.replicate 16 0
  saved : s.saved = Vector.replicate 16 0
  ks : s.ks = Vector.replicate 64 0
  k : s.k = Vector.replicate 8 0
  n : s.n = Vector.replicate 3 0

/-- The number of control words a command issues when memory accepts its accesses (R117): 1, 2 or 4, or
`5 + n · (4·ROUNDS + 5)`. -/
def commandSteps (d : Descriptor) : Nat :=
  match entryError d with
  | some _ => 1
  | none =>
    if counterOverflows d then 2
    else if blockCount d.inLen = 0 then 4
    else 5 + blockCount d.inLen * (4 * d.rounds.toNat + 5)

/-- The phases in which a block is being processed or about to be. -/
def inBlockLoop : Phase → Bool
  | .load | .init | .qr | .ffadd | .ser | .xor | .inc => true
  | .idle | .valid | .ovf | .wipe | .ret => false

/-- The phases in which LDKN has run and WIPE has not. -/
def holdsKey : Phase → Bool
  | .init | .qr | .ffadd | .ser | .xor | .inc | .wipe => true
  | .idle | .valid | .ovf | .load | .ret => false

/-- The invariant of the engine when no listing is run on it. The clauses are what the rules say of the registers at each
phase. -/
structure EngineInv (s : State) : Prop where
  /-- No listing has been placed (R72: the hardware has none). -/
  noListing : s.listing = []
  /-- The memory is in canonical form. -/
  memWf : Memory.wf s.mem
  /-- The idle invariant and its extension to the phases before LDKN and after WIPE (R24). -/
  zero : holdsKey s.ph = false → DatapathZero s
  /-- RESULT is None while a command runs (R23). -/
  noResult : s.ph ≠ .idle → s.result = .none
  /-- A command runs on a descriptor that is written (R21, R182). -/
  written : s.ph ≠ .idle → ∀ r, s.isWritten r = true
  /-- VALID has passed (R115). -/
  checked : s.ph ≠ .idle → s.ph ≠ .valid → entryError s.desc = none
  /-- Before OVFCHK has run, BLK and NBLK are 0 (R110). -/
  uncounted : s.ph = .valid ∨ s.ph = .ovf → s.blk = 0 ∧ s.nblk = 0
  /-- After OVFCHK, NBLK is the block count and the counter cannot overflow (R15, R112). -/
  counted : inBlockLoop s.ph = true ∨ s.ph = .wipe ∨ s.ph = .ret →
    s.nblk.toNat = (s.desc.inLen + 63) / 64 ∧ s.desc.counter.toNat + s.nblk.toNat ≤ 2 ^ 32 - 1
  /-- CTR is the counter of block BLK (R14, R115). -/
  counter : s.ph ≠ .idle → s.ctr.toNat = s.desc.counter.toNat + s.blk.toNat
  /-- In the loop a block is left (R17, R115). -/
  blockLeft : inBlockLoop s.ph = true → s.blk.toNat < s.nblk.toNat
  /-- After the loop none is left (R115). -/
  blocksDone : s.ph = .wipe ∨ s.ph = .ret → s.blk = s.nblk
  /-- A command that has begun has legal ranges (R45 to R47, R183). -/
  ranges : s.ph ≠ .idle → LegalRanges s.params s.desc
  /-- DR counts up to `ROUNDS/2 − 1` (R17). -/
  roundIndex : s.ph = .qr → s.dr.toNat < s.desc.rounds.toNat / 2
  /-- DR is 0 … 9 (R17). -/
  roundBound : s.dr.toNat ≤ 9
  /-- Outside the rounds DR and QI are 0 (R110, R81, R115). -/
  roundRest : s.ph ≠ .qr → s.dr = 0 ∧ s.qi = 0
  /-- S is the initial state of the block (R11, R81). -/
  original : s.ph = .qr ∨ s.ph = .ffadd → s.saved = initialWords s.k s.n s.ctr
  /-- The first quarter-round of a block finds X = S (R82, R97). -/
  fresh : s.ph = .qr → s.dr = 0 → s.qi = 0 → s.x = s.saved
  /-- A register holds no more than its width (R19). -/
  widths : ∀ r, s.desc.get r < 2 ^ r.width s.params

end Sys2Proof.Safety
end

