-- ==== Sys2Proof/Certificates/Slice0/Obligations.lean ====
section
/-! DEFINITION. The statements for the provers, from the numbered rules of spec/. A frame is written
`t = { s with <the fields written> }`: every field that is not named keeps its value. -/

open Sys2Proof Sys2Proof.Machine Sys2Proof.Safety

/-! ### Words, bytes and encodings -/

/-- R6: the 32-bit left rotation, by the rule's formula on naturals, at the distances `0 < n < 32`. -/
def Obligations.RotationIsTheSpecsFormula : Prop :=
  ∀ (a : Word) (n : Nat), 0 < n → n < 32 →
    (rotl a n).toNat = (a.toNat * 2 ^ n) % 2 ^ 32 + a.toNat / 2 ^ (32 - n)

/-- R7: little-endian conversion, both directions, and that they are inverse to each other. -/
def Obligations.LittleEndianConversion : Prop :=
  (∀ b0 b1 b2 b3 : Byte,
    (le32 b0 b1 b2 b3).toNat = b0.toNat + 2 ^ 8 * b1.toNat + 2 ^ 16 * b2.toNat + 2 ^ 24 * b3.toNat) ∧
  (∀ (w : Word) (k : Nat), k < 4 → (byteOf k w).toNat = w.toNat / 2 ^ (8 * k) % 256) ∧
  (∀ w : Word, le32 (byteOf 0 w) (byteOf 1 w) (byteOf 2 w) (byteOf 3 w) = w) ∧
  (∀ b0 b1 b2 b3 : Byte,
    byteOf 0 (le32 b0 b1 b2 b3) = b0 ∧ byteOf 1 (le32 b0 b1 b2 b3) = b1 ∧
    byteOf 2 (le32 b0 b1 b2 b3) = b2 ∧ byteOf 3 (le32 b0 b1 b2 b3) = b3)

/-- R60 to R64: the decoder reads back every well-formed instruction from its word. -/
def Obligations.DecodeOfEncodeIsTheInstruction : Prop :=
  ∀ i : Instr, i.wf = true → decode (encode i) = .ok i

/-- R60 to R65: what the decoder reads is well formed, and its word is the one decoded: no bit of a legal word is ignored. -/
def Obligations.EncodeOfDecodeIsTheWord : Prop :=
  ∀ (w : Word) (i : Instr), decode w = .ok i → i.wf = true ∧ encode i = w

/-- V30 of 95_test_vectors.md: words written out in the spec, of every row of R64, decode to what they stand for, and the words
it calls illegal are illegal. -/
def Obligations.WordsOfTheSpecDecode : Prop :=
  decode 0x01000000 = .ok .valid ∧ decode 0x02000000 = .ok .ovfchk ∧ decode 0x03000000 = .ok .ldkn ∧
  decode 0x10000000 = .ok .init ∧ decode 0x2000048C = .ok (.qr 0 4 8 12) ∧ decode 0x2000278D = .ok (.qr 2 7 8 13) ∧
  decode 0x2000349E = .ok (.qr 3 4 9 14) ∧ decode 0x21000000 = .ok .colr ∧ decode 0x22000000 = .ok .diagr ∧
  decode 0x23000000 = .ok .dround ∧ decode 0x28000000 = .ok .ffadd ∧ decode 0x29000000 = .ok .ser ∧
  decode 0x2F000000 = .ok .block ∧ decode 0x30000040 = .ok (.xorb 64) ∧ decode 0x30000001 = .ok (.xorb 1) ∧
  decode 0x31000000 = .ok .wipe ∧ decode 0x40000000 = .ok .ctrinc ∧ decode 0x41000000 = .ok .ret ∧
  decode 0x80000000 = .ok .xform ∧
  ∀ w ∈ ([0x200004C8, 0x20002788, 0x20000000, 0x2001048C, 0x30000000, 0x30000041, 0x30000140, 0x10000001, 0x00000000,
    0xFFFFFFFF, 0x04000000, 0x2A000000, 0x42000000] : List Word), isLegalWord w = false

/-- R64, R65: the legal words are exactly the format Z words of fourteen opcodes, the QR words of the eight tuples and the XORB
words with `1 ≤ m ≤ 64`; fields read as numbers. -/
def Obligations.LegalWordsAreTheSixteenRows : Prop :=
  ∀ w : Word, isLegalWord w = true ↔
    (w.toNat % 2 ^ 24 = 0 ∧ w.toNat / 2 ^ 24 ∈
      [0x01, 0x02, 0x03, 0x10, 0x21, 0x22, 0x23, 0x28, 0x29, 0x2F, 0x31, 0x40, 0x41, 0x80]) ∨
    w.toNat ∈ [0x2000048C, 0x2000159D, 0x200026AE, 0x200037BF, 0x200005AF, 0x200016BC, 0x2000278D, 0x2000349E] ∨
    (w.toNat / 2 ^ 8 = 0x300000 ∧ 1 ≤ w.toNat % 2 ^ 8 ∧ w.toNat % 2 ^ 8 ≤ 64)

/-- R68: a listing of legal instructions, one line each (the mnemonic in upper case, the operands as decimal numbers separated
by commas, then an optional comment after `;`), names their words; with the four lines R68 writes out. How spaces are read is
the model's (log 23). -/
def Obligations.AssembledListingNamesTheWord : Prop :=
  (∀ is : List Instr, (∀ i ∈ is, i.wf = true) → assembleListing (is.map listingLine) = some (is.map encode)) ∧
  (∀ (i : Instr) (comment : String), i.wf = true → assembleLine (listingLine i ++ (" ;" ++ comment)) = some i) ∧
  assembleListing ["QR 2,7,8,13", "XORB 6", "XORB 64", "INIT"] = some [0x2000278D, 0x30000006, 0x30000040, 0x10000000]

/-! ### What a step runs -/

/-- R72: a step on a listing of legal words is the first word's meaning, on the state with the rest of the listing; a placed
word runs at the very next step. R72 permits a listing; that it waits in State, goes before host and engine, one word a step, and
how a word is placed, is the model's choice (log 6), and that it goes on after a word that raised (log 25). -/
def Obligations.ListingStepRunsTheDecodedWord : Prop :=
  (∀ (s : State) (w : Word) (rest : List Word) (i : Instr), s.listing = w :: rest →
    (∀ v ∈ w :: rest, isLegalWord v = true) → decode w = .ok i → step s = exec i { s with listing := rest }) ∧
  (∀ (s : State) (nbits w : Nat) (i : Instr), decodeTableWord nbits w = some i →
    step (s.withFetchWord nbits w) = exec i { s with listing := [] })

/-- R65: a listing that contains an illegal word is refused, wherever the word stands in it. -/
def Obligations.ListingWithAnIllegalWordIsRefused : Prop :=
  ∀ (s : State) (w : Word), w ∈ s.listing → isLegalWord w = false →
    ∃ v, v ∈ s.listing ∧ isLegalWord v = false ∧ step s = .refused (.illegalWord v)

/-- R115: with no listing and no host move, a busy engine's step is the meaning of the word it issues, then the move of PC,
only when the ranges of the command are legal, as they are in every command that has begun (R183; log 7). -/
def Obligations.SequencerStepRunsTheIssuedWord : Prop :=
  ∀ (s : State) (i : Instr), EngineAlone s → s.ph ≠ .idle → issue s = some i → LegalRanges s.params s.desc →
    step s = andThen (exec i s) fun u => .next (advance u)

/-- R64, R65, R115: the sequencer issues legal primitive words only. -/
def Obligations.IssuedWordsAreLegalPrimitives : Prop :=
  ∀ (s : State) (i : Instr), issue s = some i → i.wf = true ∧ i.isPrimitive = true ∧ issuedWord s = some (encode i)

/-- R115: the table, both columns, over every state that meets the invariant. -/
def Obligations.SequencerFollowsItsTable : Prop :=
  ∀ s t : State, EngineInv s → engineStep s = .next t →
    (s.ph = .idle → t = s) ∧
    (s.ph = .valid → issue s = some .valid ∧
      (t.ph = .ovf ∧ t.result = s.result ∨ t.ph = .idle ∧ ∃ e, t.result = .err e)) ∧
    (s.ph = .ovf → issue s = some .ovfchk ∧
      (t.ph = (if t.nblk = 0 then .wipe else .load) ∧ t.result = s.result ∨ t.ph = .idle ∧ ∃ e, t.result = .err e)) ∧
    (s.ph = .load → issue s = some .ldkn ∧ t.ph = .init) ∧
    (s.ph = .init → issue s = some .init ∧ t.ph = .qr ∧ t.dr = 0 ∧ t.qi = 0) ∧
    (s.ph = .qr → issue s = some (tupleInstr s.qi) ∧
      (s.qi.toNat < 7 → t.ph = .qr ∧ t.qi.toNat = s.qi.toNat + 1 ∧ t.dr = s.dr) ∧
      (s.qi.toNat = 7 → t.qi = 0 ∧
        (s.dr.toNat + 1 = s.desc.rounds.toNat / 2 → t.ph = .ffadd ∧ t.dr = 0) ∧
        (s.dr.toNat + 1 ≠ s.desc.rounds.toNat / 2 → t.ph = .qr ∧ t.dr.toNat = s.dr.toNat + 1))) ∧
    (s.ph = .ffadd → issue s = some .ffadd ∧ t.ph = .ser) ∧
    (s.ph = .ser → issue s = some .ser ∧ t.ph = .xor) ∧
    (s.ph = .xor → (∃ m, issue s = some (.xorb m)) ∧ t.ph = .inc) ∧
    (s.ph = .inc → issue s = some .ctrinc ∧ t.blk.toNat = s.blk.toNat + 1 ∧
      t.ph = (if s.blk.toNat + 1 = s.nblk.toNat then .wipe else .init)) ∧
    (s.ph = .wipe → issue s = some .wipe ∧ t.ph = .ret) ∧
    (s.ph = .ret → issue s = some .ret ∧ t.ph = .idle) ∧
    (s.ph ≠ .inc → t.blk = s.blk) ∧
    (s.ph ≠ .qr → s.ph ≠ .init → t.dr = s.dr ∧ t.qi = s.qi)

/-- R123: the byte count of every block: 64 before the last; for the last `IN_LEN mod 64`, or 64 when that is zero. -/
def Obligations.OverlayByteCount : Prop :=
  ∀ s : State, EngineInv s → s.ph = .xor →
    ∃ m : Byte, issue s = some (.xorb m) ∧ 1 ≤ m.toNat ∧ m.toNat ≤ 64 ∧
      (s.blk.toNat < s.nblk.toNat - 1 → m.toNat = 64) ∧
      (s.blk.toNat = s.nblk.toNat - 1 →
        m.toNat = s.desc.inLen - 64 * (s.nblk.toNat - 1) ∧
        m.toNat = if s.desc.inLen % 64 = 0 then 64 else s.desc.inLen % 64)

/-! ### The sequencer's words -/

/-- R111: VALID makes four checks in order; the first that fails takes the trap (R157), and when all pass nothing is written. -/
def Obligations.ValidChecksInOrder : Prop :=
  ∀ s : State,
    (s.desc.outLen ≠ s.desc.inLen → exec .valid s = .next { s with result := .err .lengthMismatch, ph := .idle }) ∧
    (s.desc.outLen = s.desc.inLen → s.desc.nonceLen ≠ 12 →
      exec .valid s = .next { s with result := .err .invalidNonceLength, ph := .idle }) ∧
    (s.desc.outLen = s.desc.inLen → s.desc.nonceLen = 12 → s.desc.keyLen ≠ 32 →
      exec .valid s = .next { s with result := .err .invalidKeyLength, ph := .idle }) ∧
    (s.desc.outLen = s.desc.inLen → s.desc.nonceLen = 12 → s.desc.keyLen = 32 →
      ¬(s.desc.rounds = 8 ∨ s.desc.rounds = 12 ∨ s.desc.rounds = 20) →
      exec .valid s = .next { s with result := .err .invalidRoundCount, ph := .idle }) ∧
    (s.desc.outLen = s.desc.inLen → s.desc.nonceLen = 12 → s.desc.keyLen = 32 →
      (s.desc.rounds = 8 ∨ s.desc.rounds = 12 ∨ s.desc.rounds = 20) → exec .valid s = .next s)

/-- R112, encoding and effect: OVFCHK counts the blocks on naturals; a sum above `2^32 − 1` takes the trap, else NBLK is the count. -/
def Obligations.OvfchkCountsBlocksOrTraps : Prop :=
  decode 0x02000000 = .ok .ovfchk ∧ ∀ s : State,
    (s.desc.counter.toNat + (s.desc.inLen + 63) / 64 ≤ 2 ^ 32 - 1 →
      ∃ t, exec .ovfchk s = .next t ∧ t.nblk.toNat = (s.desc.inLen + 63) / 64 ∧ t = { s with nblk := t.nblk }) ∧
    (2 ^ 32 - 1 < s.desc.counter.toNat + (s.desc.inLen + 63) / 64 →
      exec .ovfchk s = .next { s with result := .err .counterOverflow, ph := .idle }) ∧
    (s.desc.inLen = 0 → exec .ovfchk s = .next { s with nblk := 0 })

/-- R113: CTRINC adds one modulo 2^32 and changes nothing else; inside a command it never wraps. -/
def Obligations.CtrincAdvancesWithoutWrap : Prop :=
  (∀ s : State, ∃ t, exec .ctrinc s = .next t ∧ t.ctr.toNat = (s.ctr.toNat + 1) % 2 ^ 32 ∧ t = { s with ctr := t.ctr }) ∧
  (∀ s : State, EngineInv s → s.ph = .inc → s.ctr.toNat ≤ 2 ^ 32 - 2)

/-- R114, encoding and effect: RET reports CTR and ends the command; in a command that value is `COUNTER + NBLK`, at most `2^32 − 1`. -/
def Obligations.RetReportsTheCounter : Prop :=
  decode 0x41000000 = .ok .ret ∧
  (∀ s : State, ∃ t, exec .ret s = .next t ∧ t = { s with result := .ok s.ctr, ph := .idle } ∧
    t.ctrOut? = some s.ctr ∧ t.done = true ∧ t.errBit = false ∧ t.busy = false ∧ t.desc.counter = s.desc.counter) ∧
  (∀ s : State, EngineInv s → s.ph = .ret →
    s.ctr.toNat = s.desc.counter.toNat + (s.desc.inLen + 63) / 64 ∧ s.ctr.toNat ≤ 2 ^ 32 - 1)

/-- R157, R158: an engine step that raises was VALID or OVFCHK; it leaves the engine idle with the error, CTR as START set it,
NBLK, BLK, DR and QI at 0, the datapath zero, the descriptor and every byte of memory as they were. -/
def Obligations.TrapIsAtomic : Prop :=
  ∀ (s t : State) (e : Exc), EngineInv s → s.ph ≠ .idle → engineStep s = .next t → t.result = .err e →
    (s.ph = .valid ∨ s.ph = .ovf) ∧ t = { s with result := .err e, ph := .idle } ∧ t.ctr = s.desc.counter ∧
    t.nblk = 0 ∧ t.blk = 0 ∧ t.dr = 0 ∧ t.qi = 0 ∧ DatapathZero t ∧ t.ctrOut? = none ∧ t.ecode = e.code

/-! ### The State Initializer -/

/-- R80, R42: LDKN latches eight key words and three nonce words, the byte at the lowest address least significant; nothing
else changes. -/
def Obligations.LdknLatchesLittleEndianWords : Prop :=
  ∀ s : State, (∀ j < 32, accessFault s .read (s.desc.keyAddr + j) = none) →
    (∀ j < 12, accessFault s .read (s.desc.nonceAddr + j) = none) →
    ∃ t, exec .ldkn s = .next t ∧ t = { s with k := t.k, n := t.n } ∧
      (∀ i : Fin 8, (t.k[i]).toNat =
        (memByte s.mem (s.desc.keyAddr + 4 * i)).toNat + 2 ^ 8 * (memByte s.mem (s.desc.keyAddr + 4 * i + 1)).toNat
        + 2 ^ 16 * (memByte s.mem (s.desc.keyAddr + 4 * i + 2)).toNat
        + 2 ^ 24 * (memByte s.mem (s.desc.keyAddr + 4 * i + 3)).toNat) ∧
      (∀ i : Fin 3, (t.n[i]).toNat =
        (memByte s.mem (s.desc.nonceAddr + 4 * i)).toNat + 2 ^ 8 * (memByte s.mem (s.desc.nonceAddr + 4 * i + 1)).toNat
        + 2 ^ 16 * (memByte s.mem (s.desc.nonceAddr + 4 * i + 2)).toNat
        + 2 ^ 24 * (memByte s.mem (s.desc.nonceAddr + 4 * i + 3)).toNat)

/-- R48: the first access, in the order the word makes them, that memory does not accept stops LDKN and XORB. The names of the
faults are the model's (log 13). -/
def Obligations.RejectedAccessStopsTheWord : Prop :=
  (∀ (s : State) (j : Nat) (f : Fault), j < 32 → (∀ i < j, accessFault s .read (s.desc.keyAddr + i) = none) →
    accessFault s .read (s.desc.keyAddr + j) = some f → exec .ldkn s = .fault f) ∧
  (∀ (s : State) (j : Nat) (f : Fault), (∀ i < 32, accessFault s .read (s.desc.keyAddr + i) = none) → j < 12 →
    (∀ i < j, accessFault s .read (s.desc.nonceAddr + i) = none) →
    accessFault s .read (s.desc.nonceAddr + j) = some f → exec .ldkn s = .fault f) ∧
  (∀ (s : State) (m : Byte) (j : Nat) (f : Fault), 1 ≤ m.toNat → m.toNat ≤ 64 → overlayRefusal s m.toNat = none → j < m.toNat →
    (∀ i < j, accessFault s .read (inByteAddr s i) = none ∧ accessFault s .write (outByteAddr s i) = none) →
    (accessFault s .read (inByteAddr s j) = some f ∨
      accessFault s .read (inByteAddr s j) = none ∧ accessFault s .write (outByteAddr s j) = some f) →
    exec (.xorb m) s = .fault f)

/-- R81 (encoding and effect), R82: INIT lays out constants, key, counter and nonce in S, copies S to X and clears DR and QI; nothing else changes. -/
def Obligations.InitBuildsTheBlockState : Prop :=
  decode 0x10000000 = .ok .init ∧ ∀ s : State, ∃ t, exec .init s = .next t ∧
    t.saved[0] = 0x61707865 ∧ t.saved[1] = 0x3320646e ∧ t.saved[2] = 0x79622d32 ∧ t.saved[3] = 0x6b206574 ∧
    (∀ i : Fin 8, t.saved.getD (4 + i) 0 = s.k[i]) ∧ t.saved[12] = s.ctr ∧
    (∀ i : Fin 3, t.saved.getD (13 + i) 0 = s.n[i]) ∧ (∀ j : Fin 16, t.x[j] = t.saved[j]) ∧
    t = { s with saved := t.saved, x := t.x, dr := 0, qi := 0 }

/-! ### The Block Transform -/

/-- R90: QR on each of the eight tuples: the twelve assignments in order, on the four words named; the other twelve words and
everything else unchanged. -/
def Obligations.QrMixesItsFourWords : Prop :=
  ∀ (s : State) (a b c d : BitVec 4), (Instr.qr a b c d).wf = true →
    ∃ t, exec (.qr a b c d) s = .next t ∧ t = { s with x := t.x } ∧
      (∀ i : Fin 16, i ≠ wordIndex a → i ≠ wordIndex b → i ≠ wordIndex c → i ≠ wordIndex d → t.x[i] = s.x[i]) ∧
      ∃ a1 b1 c1 d1 : Word,
        a1 = s.x[wordIndex a] + s.x[wordIndex b] ∧ d1 = (s.x[wordIndex d] ^^^ a1).rotateLeft 16 ∧
        c1 = s.x[wordIndex c] + d1 ∧ b1 = (s.x[wordIndex b] ^^^ c1).rotateLeft 12 ∧
        t.x[wordIndex a] = a1 + b1 ∧ t.x[wordIndex d] = (d1 ^^^ t.x[wordIndex a]).rotateLeft 8 ∧
        t.x[wordIndex c] = c1 + t.x[wordIndex d] ∧ t.x[wordIndex b] = (b1 ^^^ t.x[wordIndex c]).rotateLeft 7

/-- R90 corner cases (ii) and (iii): the all-zero quadruple is a fixed point and QRV is a bijection on quadruples of words. -/
def Obligations.QuarterRoundIsABijection : Prop :=
  quarterRoundValues 0 0 0 0 = (0, 0, 0, 0) ∧
  Function.Bijective fun q : Word × Word × Word × Word => quarterRoundValues q.1 q.2.1 q.2.2.1 q.2.2.2

/-- R62, R63, R65: operands outside the eight tuples, and a byte count outside 1 to 64, have no meaning, and no word decodes
to them; BLOCK has none when ROUNDS is not 8, 12 or 20 or X is not S (R69, R97 "require ROUNDS in {8, 12, 20} and X[j] = S[j]
for all j"). The names of the refusals are the model's (log 9, log 10, log 21). -/
def Obligations.IllegalOperandsHaveNoMeaning : Prop :=
  (∀ (s : State) (a b c d : BitVec 4), (Instr.qr a b c d).wf = false →
    exec (.qr a b c d) s = .refused .illegalOperands ∧ ∀ w : Word, decode w ≠ .ok (.qr a b c d)) ∧
  (∀ (s : State) (m : Byte), m.toNat = 0 ∨ 64 < m.toNat →
    exec (.xorb m) s = .refused .illegalOperands ∧ ∀ w : Word, decode w ≠ .ok (.xorb m)) ∧
  (∀ s : State, ¬(s.desc.rounds = 8 ∨ s.desc.rounds = 12 ∨ s.desc.rounds = 20) → exec .block s = .refused .blockRounds) ∧
  (∀ s : State, (s.desc.rounds = 8 ∨ s.desc.rounds = 12 ∨ s.desc.rounds = 20) → s.x ≠ s.saved →
    exec .block s = .refused .blockNotInitialised)

/-- R91, R92, R93: each round macro answers the next state its expansion into QR words answers, and writes X alone. -/
def Obligations.RoundMacrosAreTheirExpansions : Prop :=
  ∀ s : State,
    (∃ t, exec .colr s = .next t ∧ t = { s with x := t.x } ∧
      Host.Core.run core 4 { s with listing := [0x2000048C, 0x2000159D, 0x200026AE, 0x200037BF] }
        = .next { t with listing := [] }) ∧
    (∃ t, exec .diagr s = .next t ∧ t = { s with x := t.x } ∧
      Host.Core.run core 4 { s with listing := [0x200005AF, 0x200016BC, 0x2000278D, 0x2000349E] }
        = .next { t with listing := [] }) ∧
    (∃ t, exec .dround s = .next t ∧ t = { s with x := t.x } ∧ exec .dround s = andThen (exec .colr s) (exec .diagr))

/-- R99: within a round the quarter-rounds act on disjoint words, so any two of them may change places. -/
def Obligations.LanesOfARoundCommute : Prop :=
  ∀ (s : State) (p q : Instr),
    (p ∈ [Instr.qr 0 4 8 12, .qr 1 5 9 13, .qr 2 6 10 14, .qr 3 7 11 15] ∧
      q ∈ [Instr.qr 0 4 8 12, .qr 1 5 9 13, .qr 2 6 10 14, .qr 3 7 11 15] ∨
     p ∈ [Instr.qr 0 5 10 15, .qr 1 6 11 12, .qr 2 7 8 13, .qr 3 4 9 14] ∧
      q ∈ [Instr.qr 0 5 10 15, .qr 1 6 11 12, .qr 2 7 8 13, .qr 3 4 9 14]) →
    ∃ t, andThen (exec p s) (exec q) = .next t ∧ andThen (exec q s) (exec p) = .next t

/-- R95, encoding and effect: FFADD adds S to X word by word modulo 2^32; S and everything else unchanged. -/
def Obligations.FfaddAddsTheOriginalState : Prop :=
  decode 0x28000000 = .ok .ffadd ∧ ∀ s : State, ∃ t, exec .ffadd s = .next t ∧ t = { s with x := t.x } ∧
    ∀ j : Fin 16, (t.x[j]).toNat = ((s.x[j]).toNat + (s.saved[j]).toNat) % 2 ^ 32

/-- R96, encoding and effect: SER writes all 64 keystream bytes, little-endian per word; X and everything else unchanged. -/
def Obligations.SerWritesLittleEndianBytes : Prop :=
  decode 0x29000000 = .ok .ser ∧ ∀ s : State, ∃ t, exec .ser s = .next t ∧ t = { s with ks := t.ks } ∧
    ∀ (j : Fin 16) (k : Fin 4), (t.ks.getD (4 * j + k) 0).toNat = (s.x[j]).toNat / 2 ^ (8 * k.val) % 256

/-- R69, R94, R97: BLOCK with what it requires, a legal ROUNDS and X = S, answers what its expansion answers: `ROUNDS / 2` times
the eight QR words in table order, FFADD, SER, `4·ROUNDS + 2` words; it writes X and KS alone. -/
def Obligations.BlockIsItsExpansion : Prop :=
  ∀ s : State, s.desc.rounds = 8 ∨ s.desc.rounds = 12 ∨ s.desc.rounds = 20 → s.x = s.saved →
    ∃ t, exec .block s = .next t ∧ t = { s with x := t.x, ks := t.ks } ∧
      Host.Core.run core (4 * s.desc.rounds.toNat + 2)
        { s with listing := (List.replicate (s.desc.rounds.toNat / 2)
            [0x2000048C, 0x2000159D, 0x200026AE, 0x200037BF, 0x200005AF, 0x200016BC, 0x2000278D, 0x2000349E]).flatten
              ++ [0x28000000, 0x29000000] }
        = .next { t with listing := [] }

/-- R101: after INIT and BLOCK the keystream block depends on K, N, CTR and ROUNDS alone, whatever the memory, the rest of the
descriptor and the blocks before it. -/
def Obligations.KeystreamBlockIsAPureFunction : Prop :=
  ∀ s s' : State, s.k = s'.k → s.n = s'.n → s.ctr = s'.ctr → s.desc.rounds = s'.desc.rounds →
    (s.desc.rounds = 8 ∨ s.desc.rounds = 12 ∨ s.desc.rounds = 20) →
    ∃ t t', andThen (exec .init s) (exec .block) = .next t ∧ andThen (exec .init s') (exec .block) = .next t' ∧
      t.ks = t'.ks ∧ t.ks = keystreamBlock s.k s.n s.ctr s.desc.rounds

/-! ### The XOR Overlay -/

/-- R140: XORB writes `m` bytes of the output, each the input byte XOR its leading keystream byte; every other byte of memory
and everything else is unchanged. The partial overlaps of R45 are shut out because the rule refuses them (next statement). -/
def Obligations.XorbCombinesOneBlock : Prop :=
  ∀ (s : State) (m : Byte), 1 ≤ m.toNat → m.toNat ≤ 64 → Memory.wf s.mem →
    (s.desc.inLen = 0 ∨ s.desc.inAddr = s.desc.outAddr ∨ s.desc.inAddr + s.desc.inLen ≤ s.desc.outAddr
      ∨ s.desc.outAddr + s.desc.inLen ≤ s.desc.inAddr) →
    (s.desc.inAddr = s.desc.outAddr ∨ s.desc.inAddr + m.toNat ≤ s.desc.outAddr
      ∨ s.desc.outAddr + m.toNat ≤ s.desc.inAddr) →
    (∀ j < m.toNat, accessFault s .read (s.desc.inAddr + 64 * s.blk.toNat + j) = none) →
    (∀ j < m.toNat, accessFault s .write (s.desc.outAddr + 64 * s.blk.toNat + j) = none) →
    ∃ t, exec (.xorb m) s = .next t ∧ t = { s with mem := t.mem } ∧
      (∀ j < m.toNat, memByte t.mem (s.desc.outAddr + 64 * s.blk.toNat + j)
        = memByte s.mem (s.desc.inAddr + 64 * s.blk.toNat + j) ^^^ s.ks.getD j 0) ∧
      (∀ a, (∀ j < m.toNat, a ≠ s.desc.outAddr + 64 * s.blk.toNat + j) → memByte t.mem a = memByte s.mem a)

/-- R45, R140 corner case (v): input and output that overlap at different offsets are refused and no value is computed. That a
bare XORB looks at its own bytes too is the model's reading (log 8). -/
def Obligations.XorbRefusesPartialOverlap : Prop :=
  ∀ (s : State) (m : Byte), 1 ≤ m.toNat → m.toNat ≤ 64 → s.desc.inAddr ≠ s.desc.outAddr →
    (0 < s.desc.inLen ∧ s.desc.inAddr < s.desc.outAddr + s.desc.inLen ∧ s.desc.outAddr < s.desc.inAddr + s.desc.inLen ∨
      s.desc.inAddr < s.desc.outAddr + m.toNat ∧ s.desc.outAddr < s.desc.inAddr + m.toNat) →
    exec (.xorb m) s = .refused .inputOutputOverlap

/-- R141: WIPE zeroes X, S, KS, K and N, and touches nothing else. -/
def Obligations.WipeClearsKeyDerivedRegisters : Prop :=
  ∀ s : State, ∃ t, exec .wipe s = .next t ∧ (∀ j : Fin 16, t.x[j] = 0 ∧ t.saved[j] = 0) ∧ (∀ j : Fin 64, t.ks[j] = 0) ∧
    (∀ i : Fin 8, t.k[i] = 0) ∧ (∀ i : Fin 3, t.n[i] = 0) ∧
    t = { s with x := t.x, saved := t.saved, ks := t.ks, k := t.k, n := t.n }

/-! ### The whole command -/

/-- R156: the big-step command with legal ranges (R191; log 7) reports the first failing check in the order of the codes, with no
memory access and nothing of the datapath changed. The sequencer registers are as START and the trap leave them (log 11); that
neither PH nor written registers are asked is the model's choice (log 12). -/
def Obligations.XformReportsTheFirstFailingCheck : Prop :=
  ∀ (s : State) (e : Exc), LegalRanges s.params s.desc →
    (s.desc.outLen ≠ s.desc.inLen ∧ e = .lengthMismatch ∨
     s.desc.outLen = s.desc.inLen ∧ s.desc.nonceLen ≠ 12 ∧ e = .invalidNonceLength ∨
     s.desc.outLen = s.desc.inLen ∧ s.desc.nonceLen = 12 ∧ s.desc.keyLen ≠ 32 ∧ e = .invalidKeyLength ∨
     s.desc.outLen = s.desc.inLen ∧ s.desc.nonceLen = 12 ∧ s.desc.keyLen = 32 ∧
      ¬(s.desc.rounds = 8 ∨ s.desc.rounds = 12 ∨ s.desc.rounds = 20) ∧ e = .invalidRoundCount ∨
     s.desc.outLen = s.desc.inLen ∧ s.desc.nonceLen = 12 ∧ s.desc.keyLen = 32 ∧
      (s.desc.rounds = 8 ∨ s.desc.rounds = 12 ∨ s.desc.rounds = 20) ∧
      2 ^ 32 - 1 < s.desc.counter.toNat + (s.desc.inLen + 63) / 64 ∧ e = .counterOverflow) →
    exec .xform s = .next { s with result := .err e, ph := .idle, ctr := s.desc.counter, nblk := 0, blk := 0, dr := 0, qi := 0 }

/-- R116: an accepted command with legal ranges over memory that accepts its accesses writes each output byte as input byte XOR
keystream byte, no other byte of memory, returns `COUNTER + n`, and leaves the key-derived registers zero. That XFORM as a word
asks neither for PH = IDLE nor for written registers is the model's choice (log 12). -/
def Obligations.XformWritesInputXorKeystream : Prop :=
  ∀ s : State, Memory.wf s.mem → Accepted s.desc → LegalRanges s.params s.desc → MemoryAccepts s →
    ∃ (t : State) (c : Word), exec .xform s = .next t ∧ t.result = .ok c ∧
      c.toNat = s.desc.counter.toNat + (s.desc.inLen + 63) / 64 ∧ t.ph = .idle ∧ DatapathZero t ∧
      (∀ j < s.desc.inLen, memByte t.mem (s.desc.outAddr + j) = memByte s.mem (s.desc.inAddr + j) ^^^ keystreamByte s j) ∧
      (∀ a, (a < s.desc.outAddr ∨ s.desc.outAddr + s.desc.inLen ≤ a) → memByte t.mem a = memByte s.mem a) ∧
      t = { s with x := t.x, saved := t.saved, ks := t.ks, k := t.k, n := t.n, ctr := t.ctr, ph := t.ph, blk := t.blk,
                   dr := t.dr, qi := t.qi, nblk := t.nblk, result := t.result, mem := t.mem }

/-- R118: a zero-length command makes no memory access, wherever its buffers lie without a wrap (R47) and whatever memory
accepts; it returns COUNTER, and its sequencer never comes to LDKN, INIT or any other word of the block loop. The checks of
VALID still apply. That a wrapping buffer is refused here too, where P6 of 95_test_vectors.md calls the addresses arbitrary, is
the model's reading (log 7), as is that XFORM asks neither for PH = IDLE nor for written registers (log 12). -/
def Obligations.ZeroLengthCommandTouchesNoMemory : Prop :=
  (∀ s : State, LegalRanges s.params s.desc → Accepted s.desc → s.desc.inLen = 0 →
    ∃ t, exec .xform s = .next t ∧ t.result = .ok s.desc.counter ∧ t.mem = s.mem ∧ t.nblk = 0 ∧ t.ph = .idle) ∧
  (∀ s : State, EngineInv s → s.desc.inLen = 0 → inBlockLoop s.ph = false) ∧
  (∀ s : State, LegalRanges s.params s.desc → ¬Accepted s.desc → s.desc.inLen = 0 →
    ∃ t e, exec .xform s = .next t ∧ t.result = .err e ∧ t.mem = s.mem) ∧
  (∀ s : State, LegalRanges s.params s.desc → s.desc.inLen = 0 → s.desc.outLen = 0 → s.desc.nonceLen = 12 →
    s.desc.keyLen ≠ 32 → ∃ t, exec .xform s = .next t ∧ t.result = .err .invalidKeyLength ∧ t.mem = s.mem)

/-- R119: a successful command returns `COUNTER + ceil(IN_LEN / 64)`; a partial last block counts as one. -/
def Obligations.CounterAdvancesOncePerBlock : Prop :=
  ∀ (s t : State) (c : Word), exec .xform s = .next t → t.result = .ok c →
    c.toNat = s.desc.counter.toNat + (s.desc.inLen + 63) / 64 ∧
    (s.desc.inLen % 64 ≠ 0 → c.toNat = s.desc.counter.toNat + s.desc.inLen / 64 + 1) ∧
    (s.desc.inLen % 64 = 0 → c.toNat = s.desc.counter.toNat + s.desc.inLen / 64)

/-- R45, R46, R47, R191: a command with illegal ranges has no meaning, one that would trap included: as XFORM, at every phase of
the sequencer, and at START, which R183 allows only on legal ranges. At which of these steps the refusal falls is the model's
reading (log 7). -/
def Obligations.IllegalRangesAreRefused : Prop :=
  (∀ s : State, ¬LegalRanges s.params s.desc → ∃ r, exec .xform s = .refused r) ∧
  (∀ s : State, EngineAlone s → s.ph ≠ .idle → ¬LegalRanges s.params s.desc → ∃ r, step s = .refused r) ∧
  (∀ (s : State) (rest : List HostMove) (v : Nat), s.listing = [] → s.host = .write .ctrl v :: rest → v % 2 = 1 →
    ¬LegalRanges s.params s.desc → ∃ r, step s = .refused r)

/-- R117: running the sequencer from START for the number of control words of the command gives what XFORM gives, state for
state, and stops where XFORM stops. R117 names RESULT, memory and the datapath; the other registers are the model's (log 11), as
is that XFORM asks neither for PH = IDLE nor for written registers (log 12). -/
def Obligations.SequencerAgreesWithXform : Prop :=
  ∀ s : State, EngineAlone s → Host.Core.run core (commandSteps s.desc) (beginCommand s) = exec .xform s

/-- R117, R124: the step count is exact. Before it the engine is busy, after it idle; it is 1 for a command that traps in VALID,
2 for one that traps in OVFCHK, 4 without blocks, and `5 + n·(4·ROUNDS + 5)` with `n` blocks. -/
def Obligations.CommandIsBusyUntilItsLastStep : Prop :=
  (∀ (s u : State) (k : Nat), EngineAlone s → k < commandSteps s.desc →
    Host.Core.run core k (beginCommand s) = .next u → u.busy = true) ∧
  (∀ s u : State, EngineAlone s → Host.Core.run core (commandSteps s.desc) (beginCommand s) = .next u →
    u.ph = .idle ∧ u.done = true) ∧
  (∀ s : State, ¬(s.desc.outLen = s.desc.inLen ∧ s.desc.nonceLen = 12 ∧ s.desc.keyLen = 32 ∧
      (s.desc.rounds = 8 ∨ s.desc.rounds = 12 ∨ s.desc.rounds = 20)) → commandSteps s.desc = 1) ∧
  (∀ s : State, s.desc.outLen = s.desc.inLen ∧ s.desc.nonceLen = 12 ∧ s.desc.keyLen = 32 ∧
      (s.desc.rounds = 8 ∨ s.desc.rounds = 12 ∨ s.desc.rounds = 20) →
    2 ^ 32 - 1 < s.desc.counter.toNat + (s.desc.inLen + 63) / 64 → commandSteps s.desc = 2) ∧
  (∀ s : State, Accepted s.desc → s.desc.inLen = 0 → commandSteps s.desc = 4) ∧
  (∀ s : State, Accepted s.desc → 0 < s.desc.inLen →
    commandSteps s.desc = 5 + (s.desc.inLen + 63) / 64 * (4 * s.desc.rounds.toNat + 5))

/-- R120: cut at a multiple of 64 bytes and resumed at the returned counter, two commands leave the memory and the result of
one. That XFORM asks neither for PH = IDLE nor for written registers is the model's choice (log 12). -/
def Obligations.CommandIsResumable : Prop :=
  ∀ (s : State) (cut : Nat), Memory.wf s.mem → Accepted s.desc → LegalRanges s.params s.desc → MemoryAccepts s →
    cut % 64 = 0 → cut ≤ s.desc.inLen →
    ∃ (t first second : State) (c : Word), exec .xform s = .next t ∧
      exec .xform { s with desc := { s.desc with inLen := cut, outLen := cut } } = .next first ∧ first.result = .ok c ∧
      exec .xform { first with desc := { s.desc with
        inAddr := s.desc.inAddr + cut, outAddr := s.desc.outAddr + cut,
        inLen := s.desc.inLen - cut, outLen := s.desc.inLen - cut, counter := c } } = .next second ∧
      second.mem = t.mem ∧ second.result = t.result

/-- R121 (involution), R122: the same command run on its own output, written back in place or to any other legal place,
restores the input. That XFORM asks neither for PH = IDLE nor for written registers is the model's choice (log 12). -/
def Obligations.CommandIsAnInvolution : Prop :=
  ∀ (s : State) (place : Nat), Memory.wf s.mem → Accepted s.desc → LegalRanges s.params s.desc → MemoryAccepts s →
    ∃ t : State, exec .xform s = .next t ∧
      let back : State := { t with desc := { s.desc with inAddr := s.desc.outAddr, outAddr := place } }
      (LegalRanges back.params back.desc → MemoryAccepts back →
        ∃ u : State, exec .xform back = .next u ∧
          ∀ j < s.desc.inLen, memByte u.mem (place + j) = memByte s.mem (s.desc.inAddr + j))

/-- R121 (determinism), R24: two commands with the same descriptor and the same input, key and nonce bytes give the same result
and, when it is Ok, the same output bytes, whatever every register and every other byte of memory held before. That XFORM
asks neither for PH = IDLE nor for written registers is the model's choice (log 12). -/
def Obligations.OutputDependsOnDescriptorAndBuffersOnly : Prop :=
  ∀ s s' t : State, Memory.wf s.mem → Memory.wf s'.mem → s.desc = s'.desc → s.params = s'.params → s.rejects = s'.rejects →
    (∀ j < s.desc.inLen, memByte s.mem (s.desc.inAddr + j) = memByte s'.mem (s.desc.inAddr + j)) →
    (∀ j < 32, memByte s.mem (s.desc.keyAddr + j) = memByte s'.mem (s.desc.keyAddr + j)) →
    (∀ j < 12, memByte s.mem (s.desc.nonceAddr + j) = memByte s'.mem (s.desc.nonceAddr + j)) →
    exec .xform s = .next t →
    ∃ t', exec .xform s' = .next t' ∧ t'.result = t.result ∧
      ∀ c, t.result = .ok c → ∀ j < s.desc.inLen, memByte t'.mem (s.desc.outAddr + j) = memByte t.mem (s.desc.outAddr + j)

/-! ### Rules of the whole machine -/

/-- R14, R15, R17, R22, R24: the machine right after reset meets the invariant of the engine. -/
def Obligations.ResetMeetsTheEngineInvariant : Prop := EngineInv State.reset

/-- R14, R15, R17, R22, R24: every step, the engine's or the host's, keeps the invariant of the engine. -/
def Obligations.StepKeepsTheEngineInvariant : Prop :=
  ∀ s t : State, EngineInv s → step s = .next t → EngineInv t

/-- R40: every step, a listing's too, keeps the memory's canonical form. The form is the model's (log 2). -/
def Obligations.StepKeepsMemoryCanonical : Prop :=
  ∀ s t : State, Memory.wf s.mem → step s = .next t → Memory.wf t.mem

/-- R124: in a command whose ranges are legal and whose memory accepts its accesses, the engine always has a next step; and in no
state that meets the invariant is it without a word to issue. -/
def Obligations.BusyEngineAlwaysSteps : Prop :=
  (∀ s : State, EngineInv s → s.host = [] → LegalRanges s.params s.desc → MemoryAccepts s → ∃ t, step s = .next t) ∧
  (∀ s : State, EngineInv s → step s ≠ .refused .noWordToIssue)

/-- R20: no control word writes a descriptor register; nor the host's queue, the listing, the platform or the parameters.
R150, R114, R157: only VALID, OVFCHK, RET and the macro of the whole command change RESULT or PH. R40: only XORB and that macro
change memory. R14, R15: the words that write CTR and NBLK are CTRINC and OVFCHK, and the macro. -/
def Obligations.WordsLeaveWhatTheyDoNotName : Prop :=
  ∀ (i : Instr) (s t : State), exec i s = .next t →
    (t.desc = s.desc ∧ t.written = s.written ∧ t.params = s.params ∧ t.rejects = s.rejects ∧ t.host = s.host ∧
      t.listing = s.listing ∧ t.readData = s.readData ∧ t.returned = s.returned ∧ t.fresh = s.fresh) ∧
    (i ≠ .valid → i ≠ .ovfchk → i ≠ .ret → i ≠ .xform → t.result = s.result ∧ t.ph = s.ph) ∧
    ((∀ m, i ≠ .xorb m) → i ≠ .xform → t.mem = s.mem) ∧
    (i ≠ .ctrinc → i ≠ .xform → t.ctr = s.ctr) ∧
    (i ≠ .ovfchk → i ≠ .xform → t.nblk = s.nblk) ∧
    (i ≠ .xform → t.blk = s.blk) ∧
    (i ≠ .ldkn → i ≠ .wipe → i ≠ .xform → t.k = s.k ∧ t.n = s.n) ∧
    (i ≠ .init → i ≠ .wipe → i ≠ .xform → t.saved = s.saved) ∧
    (i ≠ .init → i ≠ .xform → t.dr = s.dr ∧ t.qi = s.qi) ∧
    (i ≠ .ser → i ≠ .block → i ≠ .wipe → i ≠ .xform → t.ks = s.ks) ∧
    (i = .valid ∨ i = .ovfchk ∨ i = .ldkn ∨ i = .ser ∨ (∃ m, i = .xorb m) ∨ i = .ctrinc ∨ i = .ret → t.x = s.x)

/-- R40, R56: a running command writes memory in XORB steps only, and only inside its output range. -/
def Obligations.CommandWritesOnlyItsOutput : Prop :=
  ∀ (s t : State) (a : Nat), EngineInv s → engineStep s = .next t →
    (s.ph ≠ .xor ∨ a < s.desc.outAddr ∨ s.desc.outAddr + s.desc.inLen ≤ a) → memByte t.mem a = memByte s.mem a

/-- R100, R125: once the checks are over, the word issued and the next position depend on PC, NBLK, ROUNDS and IN_LEN alone, never
on key, nonce, counter, keystream or data. -/
def Obligations.ControlFlowIsDataIndependent : Prop :=
  ∀ s s' t t' : State, s.ph = s'.ph → s.blk = s'.blk → s.dr = s'.dr → s.qi = s'.qi → s.nblk = s'.nblk →
    s.desc.rounds = s'.desc.rounds → s.desc.inLen = s'.desc.inLen → s.ph ≠ .valid → s.ph ≠ .ovf →
    engineStep s = .next t → engineStep s' = .next t' →
    issue s = issue s' ∧ t.ph = t'.ph ∧ t.blk = t'.blk ∧ t.dr = t'.dr ∧ t.qi = t'.qi ∧ t.nblk = t'.nblk

/-! ### The host interface -/

/-- R26, R180: the reset values the spec gives. (The values of the descriptor and of memory are the model's, log 2 and log 3, and
are not stated here.) -/
def Obligations.ResetValuesOfTheSpec : Prop :=
  State.reset.ph = .idle ∧ State.reset.blk = 0 ∧ State.reset.dr = 0 ∧ State.reset.qi = 0 ∧ State.reset.nblk = 0 ∧
  State.reset.ctr = 0 ∧ DatapathZero State.reset ∧ State.reset.result = .none ∧ State.reset.statusByte = 0x00 ∧
  State.reset.ctrOut? = none ∧ ∀ r, State.reset.isWritten r = false

/-- R22: STATUS bit by bit, and BUSY and DONE are never both 1 in a state that meets the invariant. -/
def Obligations.StatusIsAViewOfPhaseAndResult : Prop :=
  (∀ s : State, s.statusByte.toNat =
    (if s.ph = .idle then 0 else 1) + 2 * (if s.result = .none then 0 else 1) +
    (match s.result with
      | .none => 0
      | .ok _ => 0
      | .err e => 4 + 16 * (match e with
        | .lengthMismatch => 1
        | .invalidNonceLength => 2
        | .invalidKeyLength => 3
        | .invalidRoundCount => 4
        | .counterOverflow => 5))) ∧
  (∀ s : State, EngineInv s → ¬(s.busy = true ∧ s.done = true))

/-- R110, R21: a write to CTRL with bit 0 = 1, from IDLE with every descriptor register written and legal ranges (R183; log 7), is
START: it sets RESULT, CTR, NBLK and PC and nothing else. With bit 0 = 0 it has no effect. That the bits above 0 are not looked
at is the model's reading (log 17). -/
def Obligations.StartBeginsTheCommand : Prop :=
  (∀ (s : State) (rest : List HostMove) (v : Nat), s.listing = [] → s.host = .write .ctrl v :: rest → v % 2 = 1 →
    s.ph = .idle → (∀ r, s.isWritten r = true) → LegalRanges s.params s.desc →
    step s = .next { s with host := rest, result := .none, ctr := s.desc.counter, nblk := 0, blk := 0, dr := 0, qi := 0,
                            ph := .valid }) ∧
  (∀ (s : State) (rest : List HostMove) (v : Nat), s.listing = [] → s.host = .write .ctrl v :: rest → v % 2 = 0 →
    s.ph = .idle → step s = .next { s with host := rest })

/-- R182, R189, R20, R21: START with an unwritten descriptor register is refused; while BUSY, so is every descriptor write and
every CTRL write. The names of the refusals are the model's (log 16). -/
def Obligations.HostMovesTheModelDoesNotHave : Prop :=
  (∀ (s : State) (rest : List HostMove) (r : DescReg) (v : Nat), s.listing = [] → s.host = .write .ctrl v :: rest →
    v % 2 = 1 → s.ph = .idle → s.isWritten r = false → ∃ r', s.isWritten r' = false ∧ step s = .refused (.startUnwritten r')) ∧
  (∀ (s : State) (rest : List HostMove) (v : Nat), s.listing = [] → s.ph ≠ .idle →
    (s.host = .write .ctrl v :: rest ∨ ∃ r, s.host = .write (.desc r) v :: rest) → step s = .refused .hostMoveWhileBusy)

/-- R19, R20: in IDLE a descriptor register reads back what was written, and the other nine keep their values. After a write that
does not fit the register it holds some number of its width (free, log 17). -/
def Obligations.DescriptorReadsBackWhatWasWritten : Prop :=
  (∀ (s : State) (r : DescReg) (v : Nat) (rest : List HostMove), s.listing = [] → s.ph = .idle → v < 2 ^ r.width s.params →
    s.host = .write (.desc r) v :: .read (.desc r) :: rest →
    ∃ t, Host.Core.run core 2 s = .next t ∧ t.readData = v ∧ t.desc.get r = v ∧ t.isWritten r = true ∧
      (∀ r', r' ≠ r → t.desc.get r' = s.desc.get r' ∧ t.isWritten r' = s.isWritten r') ∧
      t = { s with desc := t.desc, written := t.written, readData := t.readData, host := rest }) ∧
  (∀ (s : State) (r : DescReg) (v : Nat) (rest : List HostMove), s.listing = [] → s.ph = .idle → 2 ^ r.width s.params ≤ v →
    s.host = .write (.desc r) v :: rest →
    ∃ t, step s = .next t ∧ t.desc.get r < 2 ^ r.width s.params ∧ t.isWritten r = true ∧
      (∀ r', r' ≠ r → t.desc.get r' = s.desc.get r' ∧ t.isWritten r' = s.isWritten r') ∧
      t = { s with desc := t.desc, written := t.written, fresh := s.fresh + 1, host := rest })

/-- R22, R23, R183: at any time the host reads STATUS as it stands; after `Ok(c)` it reads `c` in CTR_OUT; without a result
CTR_OUT gives some 32-bit value (free, log 4). A read changes nothing of the engine. -/
def Obligations.HostReadsStatusAndCounterOut : Prop :=
  (∀ (s : State) (rest : List HostMove), s.listing = [] → s.host = .read .status :: rest →
    step s = .next { s with host := rest, readData := s.statusByte.toNat }) ∧
  (∀ (s : State) (rest : List HostMove) (c : Word), s.listing = [] → s.host = .read .ctrOut :: rest → s.result = .ok c →
    step s = .next { s with host := rest, readData := c.toNat }) ∧
  (∀ (s : State) (rest : List HostMove), s.listing = [] → s.host = .read .ctrOut :: rest → (∀ c, s.result ≠ .ok c) →
    ∃ t, step s = .next t ∧ t.readData < 2 ^ 32 ∧ t = { s with host := rest, readData := t.readData, fresh := s.fresh + 1 })

/-- R183, R50: in IDLE the host reads and writes any byte the memory accepts; while a command runs it may not write the key, nonce
or input bytes, nor touch the output bytes. Which accesses the platform accepts is data of the model (log 13); that the busy
moves are refused, by the declared ranges and lengths, is the model's form of R183's "must not" (log 16). -/
def Obligations.HostMemoryHandOver : Prop :=
  (∀ (s : State) (rest : List HostMove) (a : Nat) (v : Byte), s.listing = [] → s.ph = .idle → Memory.wf s.mem →
    s.host = .memWrite a v :: rest → accessFault s .write a = none →
    ∃ t, step s = .next t ∧ t = { s with host := rest, mem := t.mem } ∧ memByte t.mem a = v ∧
      ∀ b, b ≠ a → memByte t.mem b = memByte s.mem b) ∧
  (∀ (s : State) (rest : List HostMove) (a : Nat), s.listing = [] → s.ph = .idle → s.host = .memRead a :: rest →
    accessFault s .read a = none → step s = .next { s with host := rest, readData := (memByte s.mem a).toNat }) ∧
  (∀ (s : State) (rest : List HostMove) (a : Nat) (v : Byte), s.listing = [] → s.ph ≠ .idle → s.host = .memWrite a v :: rest →
    (s.desc.outAddr ≤ a ∧ a < s.desc.outAddr + s.desc.outLen ∨ s.desc.inAddr ≤ a ∧ a < s.desc.inAddr + s.desc.inLen ∨
      s.desc.keyAddr ≤ a ∧ a < s.desc.keyAddr + s.desc.keyLen ∨
      s.desc.nonceAddr ≤ a ∧ a < s.desc.nonceAddr + s.desc.nonceLen) → step s = .refused (.bufferInUse a)) ∧
  (∀ (s : State) (rest : List HostMove) (a : Nat), s.listing = [] → s.ph ≠ .idle → s.host = .memRead a :: rest →
    s.desc.outAddr ≤ a → a < s.desc.outAddr + s.desc.outLen → step s = .refused (.bufferInUse a))

/-- R180, R181: reset gives the reset values and keeps memory; while an XORB is in progress its first bytes may have been written,
and no other byte has changed. What reset gives the descriptor, and that the count of those bytes comes with the move, is the
model's (log 3, log 14). -/
def Obligations.ResetAbandonsTheCommand : Prop :=
  (∀ (s : State) (rest : List HostMove) (k : Nat), s.listing = [] → s.host = .reset k :: rest → (s.ph ≠ .xor ∨ k = 0) →
    step s = .next { State.reset with mem := s.mem, rejects := s.rejects, params := s.params, host := rest,
                                      readData := s.readData, returned := s.returned, fresh := s.fresh }) ∧
  (∀ (s : State) (rest : List HostMove) (k : Nat), EngineInv s → MemoryAccepts s → s.host = .reset k :: rest → s.ph = .xor →
    ∃ t, step s = .next t ∧
      t = { State.reset with mem := t.mem, rejects := s.rejects, params := s.params, host := rest,
                             readData := s.readData, returned := s.returned, fresh := s.fresh } ∧
      (∀ j < min k (blockBytes s), memByte t.mem (outByteAddr s j)
        = memByte s.mem (inByteAddr s j) ^^^ s.ks.getD j 0) ∧
      (∀ a, (∀ j < min k (blockBytes s), a ≠ outByteAddr s j) → memByte t.mem a = memByte s.mem a))

/-- R70: from IDLE, the moves of `encrypt`, and of `decrypt` where the lengths match, write the ten descriptor registers with the
round count of the variant and START the command. -/
def Obligations.EncryptWritesTheDescriptorAndStarts : Prop :=
  ∀ (s : State) (v : Variant) (b : CallBuffers) (counter : Word), s.listing = [] → s.ph = .idle →
    (s.host = encryptMoves v b counter ∨ s.host = decryptMoves v b counter ∧ b.output.len = b.input.len) →
    (∀ r, (callDescriptor v b counter).get r < 2 ^ r.width s.params) → LegalRanges s.params (callDescriptor v b counter) →
    Host.Core.run core 11 s = .next { beginCommand { s with desc := callDescriptor v b counter } with
      written := Vector.replicate 10 true, host := s.host.drop 11 }

/-- R70, R122: the whole call: after the command's last control word `encrypt` returns the counter, `decrypt` returns without it,
and either fails with the command's error; the machine is where XFORM leaves it. `decrypt` fails with LengthMismatch before it
touches the engine when the lengths differ. How a host waits and what its caller gets is the model's (log 5, log 26). -/
def Obligations.WrappersReturnTheCounterOrFail : Prop :=
  (∀ (s : State) (v : Variant) (b : CallBuffers) (counter : Word), s.listing = [] → s.ph = .idle →
    (∀ r, (callDescriptor v b counter).get r < 2 ^ r.width s.params) → LegalRanges s.params (callDescriptor v b counter) →
    let ready : State := { s with desc := callDescriptor v b counter, written := Vector.replicate 10 true, host := [] }
    (s.host = encryptMoves v b counter →
      Host.Core.run core (12 + commandSteps ready.desc) s = andThen (exec .xform ready) fun t => .next { t with
        returned := match t.result with
          | .none => s.returned
          | .ok c => .counter c
          | .err e => .failed e }) ∧
    (s.host = decryptMoves v b counter → b.output.len = b.input.len →
      Host.Core.run core (12 + commandSteps ready.desc) s = andThen (exec .xform ready) fun t => .next { t with
        returned := match t.result with
          | .none => s.returned
          | .ok _ => .void
          | .err e => .failed e })) ∧
  (∀ (s : State) (v : Variant) (b : CallBuffers) (counter : Word), s.listing = [] → b.output.len ≠ b.input.len →
    s.host = decryptMoves v b counter → step s = .next { s with host := [], returned := .failed .lengthMismatch })
end

