-- ==== Sys2Proof/Laws/Memory.lean ====
section
/-! SUPPORT. The data memory: read after write, every other byte kept, the canonical form kept, and equal bytes make equal
memories. -/

namespace Sys2Proof.Machine

/-- A read after a write to the same address gives the value written (R44). -/
@[simp] theorem memByte_memStore_same (m : Memory) (a : Nat) (v : Byte) (h : Memory.wf m) :
    memByte (memStore m a v) a = v := by
  induction m with
  | nil => by_cases hv : v = blankByte <;> simp [memStore, memByte, hv]
  | cons p rest ih =>
    obtain ⟨b, w⟩ := p
    obtain ⟨hs, hn⟩ := h
    rw [List.pairwise_cons] at hs
    have hwf : Memory.wf rest := ⟨hs.2, fun p hp => hn p (List.mem_cons_of_mem _ hp)⟩
    have unlisted : ∀ l : Memory, (∀ p ∈ l, a < p.1) → memByte l a = blankByte := by
      intro l
      induction l with
      | nil => intro _; rfl
      | cons q l ihl =>
        intro hl
        have hq := hl q List.mem_cons_self
        simp only [memByte]
        rw [if_neg (by omega)]
        exact ihl fun p hp => hl p (List.mem_cons_of_mem _ hp)
    simp only [memStore]
    split
    · rename_i hab
      split
      · rename_i hv
        rw [hv]
        refine unlisted _ fun p hp => ?_
        rcases List.mem_cons.1 hp with rfl | hp
        · exact hab
        · exact lt_trans hab (hs.1 p hp)
      · simp [memByte]
    · split
      · rename_i hab
        split
        · rename_i hv
          rw [hv]
          exact unlisted _ fun p hp => by have := hs.1 p hp; simp only at this; omega
        · simp [memByte]
      · rename_i h1 h2
        simp only [memByte, if_neg h2]
        exact ih hwf

/-- A write leaves every other byte (R44). -/
@[simp] theorem memByte_memStore_other (m : Memory) (a b : Nat) (v : Byte) (h : a ≠ b) :
    memByte (memStore m b v) a = memByte m a := by
  induction m with
  | nil =>
    simp only [memStore]
    split <;> simp [memByte, h]
  | cons p rest ih =>
    obtain ⟨c, w⟩ := p
    simp only [memStore]
    split
    · split
      · rfl
      · simp [memByte, h]
    · split
      · rename_i hbc
        split
        · simp [memByte, ← hbc, h]
        · simp [memByte, ← hbc, h]
      · simp only [memByte, ih]

/-- Every entry of a memory after a write is an old entry or the written one. -/
theorem mem_memStore {m : Memory} {a : Nat} {v : Byte} {p : Host.Cell} (hp : p ∈ memStore m a v) :
    p ∈ m ∨ (p = (a, v) ∧ v ≠ blankByte) := by
  induction m with
  | nil =>
    simp only [memStore] at hp
    split at hp
    · simp at hp
    · rename_i hv; simp at hp; exact .inr ⟨hp, hv⟩
  | cons q rest ih =>
    obtain ⟨c, w⟩ := q
    simp only [memStore] at hp
    split at hp
    · split at hp
      · exact .inl hp
      · rename_i hv
        rcases List.mem_cons.1 hp with h | h
        · exact .inr ⟨h, hv⟩
        · exact .inl h
    · split at hp
      · split at hp
        · exact .inl (List.mem_cons_of_mem _ hp)
        · rename_i hv
          rcases List.mem_cons.1 hp with h | h
          · exact .inr ⟨h, hv⟩
          · exact .inl (List.mem_cons_of_mem _ h)
      · rcases List.mem_cons.1 hp with h | h
        · exact .inl (h ▸ List.mem_cons_self)
        · exact (ih h).imp (List.mem_cons_of_mem _) id

/-- A write keeps the canonical form. -/
theorem memStore_wf {m : Memory} (a : Nat) (v : Byte) (h : Memory.wf m) : Memory.wf (memStore m a v) := by
  refine ⟨?_, fun p hp => ?_⟩
  · induction m with
    | nil => simp only [memStore]; split <;> simp
    | cons q rest ih =>
      obtain ⟨c, w⟩ := q
      obtain ⟨hs, hn⟩ := h
      have hs' := List.pairwise_cons.1 hs
      have hwf : Memory.wf rest := ⟨hs'.2, fun p hp => hn p (List.mem_cons_of_mem _ hp)⟩
      simp only [memStore]
      split
      · rename_i hac
        split
        · exact hs
        · refine List.pairwise_cons.2 ⟨fun p hp => ?_, hs⟩
          rcases List.mem_cons.1 hp with rfl | hp
          · exact hac
          · exact lt_trans hac (hs'.1 p hp)
      · split
        · rename_i hac
          subst hac
          split
          · exact hs'.2
          · exact List.pairwise_cons.2 ⟨hs'.1, hs'.2⟩
        · rename_i h1 h2
          refine List.pairwise_cons.2 ⟨fun p hp => ?_, ih hwf⟩
          rcases mem_memStore hp with hp | ⟨rfl, -⟩
          · exact hs'.1 p hp
          · simp only; omega
  · rcases mem_memStore hp with hp | ⟨rfl, hv⟩
    · exact h.2 p hp
    · exact hv

/-- Below its first entry a canonical memory lists nothing. -/
theorem memByte_below {m : Memory} {a : Nat} (h : ∀ p ∈ m, a < p.1) : memByte m a = blankByte := by
  induction m with
  | nil => rfl
  | cons q l ih =>
    have hq := h q List.mem_cons_self
    simp only [memByte]
    rw [if_neg (by omega)]
    exact ih fun p hp => h p (List.mem_cons_of_mem _ hp)

/-- In canonical form, memories that read the same everywhere are the same data. -/
theorem memory_ext {m m' : Memory} (h : Memory.wf m) (h' : Memory.wf m') (hb : ∀ a, memByte m a = memByte m' a) :
    m = m' := by
  induction m generalizing m' with
  | nil =>
    cases m' with
    | nil => rfl
    | cons q l =>
      have := hb q.1
      simp only [memByte, if_true] at this
      exact absurd this.symm (h'.2 q List.mem_cons_self)
  | cons p l ih =>
    cases m' with
    | nil =>
      have := hb p.1
      simp only [memByte, if_true] at this
      exact absurd this (h.2 p List.mem_cons_self)
    | cons q l' =>
      obtain ⟨b, v⟩ := p
      obtain ⟨c, w⟩ := q
      have hs := List.pairwise_cons.1 h.1
      have hs' := List.pairwise_cons.1 h'.1
      have hv := h.2 (b, v) List.mem_cons_self
      have hw := h'.2 (c, w) List.mem_cons_self
      have hbc : b = c := by
        rcases Nat.lt_trichotomy b c with hlt | heq | hgt
        · have hx := hb b
          have hbelow : memByte ((c, w) :: l') b = blankByte := by
            refine memByte_below fun p hp => ?_
            rcases List.mem_cons.1 hp with rfl | hp
            · exact hlt
            · exact lt_trans hlt (hs'.1 p hp)
          rw [hbelow] at hx
          simp only [memByte, if_true] at hx
          exact absurd hx hv
        · exact heq
        · have hx := hb c
          have hbelow : memByte ((b, v) :: l) c = blankByte := by
            refine memByte_below fun p hp => ?_
            rcases List.mem_cons.1 hp with rfl | hp
            · exact hgt
            · exact lt_trans hgt (hs.1 p hp)
          rw [hbelow] at hx
          simp only [memByte, if_true] at hx
          exact absurd hx.symm hw
      subst hbc
      have hvw : v = w := by have hx := hb b; simpa only [memByte, if_true] using hx
      subst hvw
      congr 1
      refine ih ⟨hs.2, fun p hp => h.2 p (List.mem_cons_of_mem _ hp)⟩
        ⟨hs'.2, fun p hp => h'.2 p (List.mem_cons_of_mem _ hp)⟩ fun a => ?_
      by_cases hab : a = b
      · subst hab
        rw [memByte_below fun p hp => hs.1 p hp, memByte_below fun p hp => hs'.1 p hp]
      · have hx := hb a
        simpa only [memByte, if_neg hab] using hx

/-- A byte access can be made exactly when the address exists and no region denies it (R40, R48). -/
theorem accessFault_eq_none {s : State} {kind : Access} {a : Nat} :
    accessFault s kind a = none ↔ a < 2 ^ s.params.addrBits ∧ ∀ r ∈ s.rejects, r.denies kind a = false := by
  unfold accessFault
  split
  · simp; omega
  · rename_i h1
    split
    · rename_i h2
      simp only [List.any_eq_true] at h2
      obtain ⟨r, hr, hd⟩ := h2
      simp only [reduceCtorEq, false_iff, not_and, not_forall]
      exact fun _ => ⟨r, hr, by simp [hd]⟩
    · rename_i h2
      simp only [List.any_eq_true, not_exists, not_and, Bool.not_eq_true] at h2
      simp only [true_iff]
      exact ⟨by omega, h2⟩

/-- A list of accesses can be made exactly when each one can. -/
theorem firstFault_eq_none {s : State} {accesses : List (Access × Nat)} :
    firstFault s accesses = none ↔ ∀ p ∈ accesses, accessFault s p.1 p.2 = none := by
  induction accesses with
  | nil => simp [firstFault]
  | cons p rest ih =>
    obtain ⟨kind, a⟩ := p
    cases h : accessFault s kind a with
    | none => simp [firstFault, h, ih]
    | some f => simp [firstFault, h]

end Sys2Proof.Machine
end

