-- ==== Sys2Proof/Laws/State.lean ====
section
/-! SUPPORT. What each update of the state leaves in each field: one lemma per field per update, each true by unfolding, so
that no later proof unfolds a record update. -/

namespace Sys2Proof.Machine

variable (s : State)

/-! ### mapX -/

@[simp] theorem mapX_x (f : Vector Word 16 → Vector Word 16) : (s.mapX f).x = f s.x := rfl
@[simp] theorem mapX_saved (f : Vector Word 16 → Vector Word 16) : (s.mapX f).saved = s.saved := rfl
@[simp] theorem mapX_ks (f : Vector Word 16 → Vector Word 16) : (s.mapX f).ks = s.ks := rfl
@[simp] theorem mapX_k (f : Vector Word 16 → Vector Word 16) : (s.mapX f).k = s.k := rfl
@[simp] theorem mapX_n (f : Vector Word 16 → Vector Word 16) : (s.mapX f).n = s.n := rfl
@[simp] theorem mapX_ctr (f : Vector Word 16 → Vector Word 16) : (s.mapX f).ctr = s.ctr := rfl
@[simp] theorem mapX_ph (f : Vector Word 16 → Vector Word 16) : (s.mapX f).ph = s.ph := rfl
@[simp] theorem mapX_blk (f : Vector Word 16 → Vector Word 16) : (s.mapX f).blk = s.blk := rfl
@[simp] theorem mapX_dr (f : Vector Word 16 → Vector Word 16) : (s.mapX f).dr = s.dr := rfl
@[simp] theorem mapX_qi (f : Vector Word 16 → Vector Word 16) : (s.mapX f).qi = s.qi := rfl
@[simp] theorem mapX_nblk (f : Vector Word 16 → Vector Word 16) : (s.mapX f).nblk = s.nblk := rfl
@[simp] theorem mapX_desc (f : Vector Word 16 → Vector Word 16) : (s.mapX f).desc = s.desc := rfl
@[simp] theorem mapX_written (f : Vector Word 16 → Vector Word 16) : (s.mapX f).written = s.written := rfl
@[simp] theorem mapX_result (f : Vector Word 16 → Vector Word 16) : (s.mapX f).result = s.result := rfl
@[simp] theorem mapX_mem (f : Vector Word 16 → Vector Word 16) : (s.mapX f).mem = s.mem := rfl
@[simp] theorem mapX_rejects (f : Vector Word 16 → Vector Word 16) : (s.mapX f).rejects = s.rejects := rfl
@[simp] theorem mapX_params (f : Vector Word 16 → Vector Word 16) : (s.mapX f).params = s.params := rfl
@[simp] theorem mapX_host (f : Vector Word 16 → Vector Word 16) : (s.mapX f).host = s.host := rfl
@[simp] theorem mapX_listing (f : Vector Word 16 → Vector Word 16) : (s.mapX f).listing = s.listing := rfl
@[simp] theorem mapX_readData (f : Vector Word 16 → Vector Word 16) : (s.mapX f).readData = s.readData := rfl
@[simp] theorem mapX_returned (f : Vector Word 16 → Vector Word 16) : (s.mapX f).returned = s.returned := rfl
@[simp] theorem mapX_fresh (f : Vector Word 16 → Vector Word 16) : (s.mapX f).fresh = s.fresh := rfl

/-! ### addSaved -/

@[simp] theorem addSaved_x : (addSaved s).x = feedForward s.x s.saved := by rw [addSaved, mapX_x]
@[simp] theorem addSaved_saved : (addSaved s).saved = s.saved := by rw [addSaved, mapX_saved]
@[simp] theorem addSaved_ks : (addSaved s).ks = s.ks := by rw [addSaved, mapX_ks]
@[simp] theorem addSaved_k : (addSaved s).k = s.k := by rw [addSaved, mapX_k]
@[simp] theorem addSaved_n : (addSaved s).n = s.n := by rw [addSaved, mapX_n]
@[simp] theorem addSaved_ctr : (addSaved s).ctr = s.ctr := by rw [addSaved, mapX_ctr]
@[simp] theorem addSaved_ph : (addSaved s).ph = s.ph := by rw [addSaved, mapX_ph]
@[simp] theorem addSaved_blk : (addSaved s).blk = s.blk := by rw [addSaved, mapX_blk]
@[simp] theorem addSaved_dr : (addSaved s).dr = s.dr := by rw [addSaved, mapX_dr]
@[simp] theorem addSaved_qi : (addSaved s).qi = s.qi := by rw [addSaved, mapX_qi]
@[simp] theorem addSaved_nblk : (addSaved s).nblk = s.nblk := by rw [addSaved, mapX_nblk]
@[simp] theorem addSaved_desc : (addSaved s).desc = s.desc := by rw [addSaved, mapX_desc]
@[simp] theorem addSaved_written : (addSaved s).written = s.written := by rw [addSaved, mapX_written]
@[simp] theorem addSaved_result : (addSaved s).result = s.result := by rw [addSaved, mapX_result]
@[simp] theorem addSaved_mem : (addSaved s).mem = s.mem := by rw [addSaved, mapX_mem]
@[simp] theorem addSaved_rejects : (addSaved s).rejects = s.rejects := by rw [addSaved, mapX_rejects]
@[simp] theorem addSaved_params : (addSaved s).params = s.params := by rw [addSaved, mapX_params]
@[simp] theorem addSaved_host : (addSaved s).host = s.host := by rw [addSaved, mapX_host]
@[simp] theorem addSaved_listing : (addSaved s).listing = s.listing := by rw [addSaved, mapX_listing]
@[simp] theorem addSaved_readData : (addSaved s).readData = s.readData := by rw [addSaved, mapX_readData]
@[simp] theorem addSaved_returned : (addSaved s).returned = s.returned := by rw [addSaved, mapX_returned]
@[simp] theorem addSaved_fresh : (addSaved s).fresh = s.fresh := by rw [addSaved, mapX_fresh]

/-! ### serialiseX -/

@[simp] theorem serialiseX_x : (serialiseX s).x = s.x := by rw [serialiseX]
@[simp] theorem serialiseX_saved : (serialiseX s).saved = s.saved := by rw [serialiseX]
@[simp] theorem serialiseX_ks : (serialiseX s).ks = serialise s.x := by rw [serialiseX]
@[simp] theorem serialiseX_k : (serialiseX s).k = s.k := by rw [serialiseX]
@[simp] theorem serialiseX_n : (serialiseX s).n = s.n := by rw [serialiseX]
@[simp] theorem serialiseX_ctr : (serialiseX s).ctr = s.ctr := by rw [serialiseX]
@[simp] theorem serialiseX_ph : (serialiseX s).ph = s.ph := by rw [serialiseX]
@[simp] theorem serialiseX_blk : (serialiseX s).blk = s.blk := by rw [serialiseX]
@[simp] theorem serialiseX_dr : (serialiseX s).dr = s.dr := by rw [serialiseX]
@[simp] theorem serialiseX_qi : (serialiseX s).qi = s.qi := by rw [serialiseX]
@[simp] theorem serialiseX_nblk : (serialiseX s).nblk = s.nblk := by rw [serialiseX]
@[simp] theorem serialiseX_desc : (serialiseX s).desc = s.desc := by rw [serialiseX]
@[simp] theorem serialiseX_written : (serialiseX s).written = s.written := by rw [serialiseX]
@[simp] theorem serialiseX_result : (serialiseX s).result = s.result := by rw [serialiseX]
@[simp] theorem serialiseX_mem : (serialiseX s).mem = s.mem := by rw [serialiseX]
@[simp] theorem serialiseX_rejects : (serialiseX s).rejects = s.rejects := by rw [serialiseX]
@[simp] theorem serialiseX_params : (serialiseX s).params = s.params := by rw [serialiseX]
@[simp] theorem serialiseX_host : (serialiseX s).host = s.host := by rw [serialiseX]
@[simp] theorem serialiseX_listing : (serialiseX s).listing = s.listing := by rw [serialiseX]
@[simp] theorem serialiseX_readData : (serialiseX s).readData = s.readData := by rw [serialiseX]
@[simp] theorem serialiseX_returned : (serialiseX s).returned = s.returned := by rw [serialiseX]
@[simp] theorem serialiseX_fresh : (serialiseX s).fresh = s.fresh := by rw [serialiseX]

/-! ### transformBlock -/

@[simp] theorem transformBlock_x : (transformBlock s).x = feedForward (doubleRounds (doubleRoundCount s.desc.rounds) s.x) s.saved :=
  by rw [transformBlock, serialiseX_x, addSaved_x, mapX_x, mapX_saved]
@[simp] theorem transformBlock_saved : (transformBlock s).saved = s.saved := by rw [transformBlock, serialiseX_saved, addSaved_saved, mapX_saved]
@[simp] theorem transformBlock_ks : (transformBlock s).ks = serialise (feedForward (doubleRounds (doubleRoundCount s.desc.rounds) s.x) s.saved) :=
  by rw [transformBlock, serialiseX_ks, addSaved_x, mapX_x, mapX_saved]
@[simp] theorem transformBlock_k : (transformBlock s).k = s.k := by rw [transformBlock, serialiseX_k, addSaved_k, mapX_k]
@[simp] theorem transformBlock_n : (transformBlock s).n = s.n := by rw [transformBlock, serialiseX_n, addSaved_n, mapX_n]
@[simp] theorem transformBlock_ctr : (transformBlock s).ctr = s.ctr := by rw [transformBlock, serialiseX_ctr, addSaved_ctr, mapX_ctr]
@[simp] theorem transformBlock_ph : (transformBlock s).ph = s.ph := by rw [transformBlock, serialiseX_ph, addSaved_ph, mapX_ph]
@[simp] theorem transformBlock_blk : (transformBlock s).blk = s.blk := by rw [transformBlock, serialiseX_blk, addSaved_blk, mapX_blk]
@[simp] theorem transformBlock_dr : (transformBlock s).dr = s.dr := by rw [transformBlock, serialiseX_dr, addSaved_dr, mapX_dr]
@[simp] theorem transformBlock_qi : (transformBlock s).qi = s.qi := by rw [transformBlock, serialiseX_qi, addSaved_qi, mapX_qi]
@[simp] theorem transformBlock_nblk : (transformBlock s).nblk = s.nblk := by rw [transformBlock, serialiseX_nblk, addSaved_nblk, mapX_nblk]
@[simp] theorem transformBlock_desc : (transformBlock s).desc = s.desc := by rw [transformBlock, serialiseX_desc, addSaved_desc, mapX_desc]
@[simp] theorem transformBlock_written : (transformBlock s).written = s.written := by rw [transformBlock, serialiseX_written, addSaved_written, mapX_written]
@[simp] theorem transformBlock_result : (transformBlock s).result = s.result := by rw [transformBlock, serialiseX_result, addSaved_result, mapX_result]
@[simp] theorem transformBlock_mem : (transformBlock s).mem = s.mem := by rw [transformBlock, serialiseX_mem, addSaved_mem, mapX_mem]
@[simp] theorem transformBlock_rejects : (transformBlock s).rejects = s.rejects := by rw [transformBlock, serialiseX_rejects, addSaved_rejects, mapX_rejects]
@[simp] theorem transformBlock_params : (transformBlock s).params = s.params := by rw [transformBlock, serialiseX_params, addSaved_params, mapX_params]
@[simp] theorem transformBlock_host : (transformBlock s).host = s.host := by rw [transformBlock, serialiseX_host, addSaved_host, mapX_host]
@[simp] theorem transformBlock_listing : (transformBlock s).listing = s.listing := by rw [transformBlock, serialiseX_listing, addSaved_listing, mapX_listing]
@[simp] theorem transformBlock_readData : (transformBlock s).readData = s.readData := by rw [transformBlock, serialiseX_readData, addSaved_readData, mapX_readData]
@[simp] theorem transformBlock_returned : (transformBlock s).returned = s.returned := by rw [transformBlock, serialiseX_returned, addSaved_returned, mapX_returned]
@[simp] theorem transformBlock_fresh : (transformBlock s).fresh = s.fresh := by rw [transformBlock, serialiseX_fresh, addSaved_fresh, mapX_fresh]

/-! ### initialise -/

@[simp] theorem initialise_x : (initialise s).x = initialWords s.k s.n s.ctr := by rw [initialise]
@[simp] theorem initialise_saved : (initialise s).saved = initialWords s.k s.n s.ctr := by rw [initialise]
@[simp] theorem initialise_ks : (initialise s).ks = s.ks := by rw [initialise]
@[simp] theorem initialise_k : (initialise s).k = s.k := by rw [initialise]
@[simp] theorem initialise_n : (initialise s).n = s.n := by rw [initialise]
@[simp] theorem initialise_ctr : (initialise s).ctr = s.ctr := by rw [initialise]
@[simp] theorem initialise_ph : (initialise s).ph = s.ph := by rw [initialise]
@[simp] theorem initialise_blk : (initialise s).blk = s.blk := by rw [initialise]
@[simp] theorem initialise_dr : (initialise s).dr = 0 := by rw [initialise]
@[simp] theorem initialise_qi : (initialise s).qi = 0 := by rw [initialise]
@[simp] theorem initialise_nblk : (initialise s).nblk = s.nblk := by rw [initialise]
@[simp] theorem initialise_desc : (initialise s).desc = s.desc := by rw [initialise]
@[simp] theorem initialise_written : (initialise s).written = s.written := by rw [initialise]
@[simp] theorem initialise_result : (initialise s).result = s.result := by rw [initialise]
@[simp] theorem initialise_mem : (initialise s).mem = s.mem := by rw [initialise]
@[simp] theorem initialise_rejects : (initialise s).rejects = s.rejects := by rw [initialise]
@[simp] theorem initialise_params : (initialise s).params = s.params := by rw [initialise]
@[simp] theorem initialise_host : (initialise s).host = s.host := by rw [initialise]
@[simp] theorem initialise_listing : (initialise s).listing = s.listing := by rw [initialise]
@[simp] theorem initialise_readData : (initialise s).readData = s.readData := by rw [initialise]
@[simp] theorem initialise_returned : (initialise s).returned = s.returned := by rw [initialise]
@[simp] theorem initialise_fresh : (initialise s).fresh = s.fresh := by rw [initialise]

/-! ### latchWords -/

@[simp] theorem latchWords_x : (latchWords s).x = s.x := by rw [latchWords]
@[simp] theorem latchWords_saved : (latchWords s).saved = s.saved := by rw [latchWords]
@[simp] theorem latchWords_ks : (latchWords s).ks = s.ks := by rw [latchWords]
@[simp] theorem latchWords_k : (latchWords s).k = Vector.ofFn fun i => memWord s.mem (s.desc.keyAddr + 4 * i.val) :=
  by rw [latchWords]
@[simp] theorem latchWords_n : (latchWords s).n = Vector.ofFn fun i => memWord s.mem (s.desc.nonceAddr + 4 * i.val) :=
  by rw [latchWords]
@[simp] theorem latchWords_ctr : (latchWords s).ctr = s.ctr := by rw [latchWords]
@[simp] theorem latchWords_ph : (latchWords s).ph = s.ph := by rw [latchWords]
@[simp] theorem latchWords_blk : (latchWords s).blk = s.blk := by rw [latchWords]
@[simp] theorem latchWords_dr : (latchWords s).dr = s.dr := by rw [latchWords]
@[simp] theorem latchWords_qi : (latchWords s).qi = s.qi := by rw [latchWords]
@[simp] theorem latchWords_nblk : (latchWords s).nblk = s.nblk := by rw [latchWords]
@[simp] theorem latchWords_desc : (latchWords s).desc = s.desc := by rw [latchWords]
@[simp] theorem latchWords_written : (latchWords s).written = s.written := by rw [latchWords]
@[simp] theorem latchWords_result : (latchWords s).result = s.result := by rw [latchWords]
@[simp] theorem latchWords_mem : (latchWords s).mem = s.mem := by rw [latchWords]
@[simp] theorem latchWords_rejects : (latchWords s).rejects = s.rejects := by rw [latchWords]
@[simp] theorem latchWords_params : (latchWords s).params = s.params := by rw [latchWords]
@[simp] theorem latchWords_host : (latchWords s).host = s.host := by rw [latchWords]
@[simp] theorem latchWords_listing : (latchWords s).listing = s.listing := by rw [latchWords]
@[simp] theorem latchWords_readData : (latchWords s).readData = s.readData := by rw [latchWords]
@[simp] theorem latchWords_returned : (latchWords s).returned = s.returned := by rw [latchWords]
@[simp] theorem latchWords_fresh : (latchWords s).fresh = s.fresh := by rw [latchWords]

/-! ### wipeRegisters -/

@[simp] theorem wipeRegisters_x : (wipeRegisters s).x = Vector.replicate 16 0 := rfl
@[simp] theorem wipeRegisters_saved : (wipeRegisters s).saved = Vector.replicate 16 0 := rfl
@[simp] theorem wipeRegisters_ks : (wipeRegisters s).ks = Vector.replicate 64 0 := rfl
@[simp] theorem wipeRegisters_k : (wipeRegisters s).k = Vector.replicate 8 0 := rfl
@[simp] theorem wipeRegisters_n : (wipeRegisters s).n = Vector.replicate 3 0 := rfl
@[simp] theorem wipeRegisters_ctr : (wipeRegisters s).ctr = s.ctr := rfl
@[simp] theorem wipeRegisters_ph : (wipeRegisters s).ph = s.ph := rfl
@[simp] theorem wipeRegisters_blk : (wipeRegisters s).blk = s.blk := rfl
@[simp] theorem wipeRegisters_dr : (wipeRegisters s).dr = s.dr := rfl
@[simp] theorem wipeRegisters_qi : (wipeRegisters s).qi = s.qi := rfl
@[simp] theorem wipeRegisters_nblk : (wipeRegisters s).nblk = s.nblk := rfl
@[simp] theorem wipeRegisters_desc : (wipeRegisters s).desc = s.desc := rfl
@[simp] theorem wipeRegisters_written : (wipeRegisters s).written = s.written := rfl
@[simp] theorem wipeRegisters_result : (wipeRegisters s).result = s.result := rfl
@[simp] theorem wipeRegisters_mem : (wipeRegisters s).mem = s.mem := rfl
@[simp] theorem wipeRegisters_rejects : (wipeRegisters s).rejects = s.rejects := rfl
@[simp] theorem wipeRegisters_params : (wipeRegisters s).params = s.params := rfl
@[simp] theorem wipeRegisters_host : (wipeRegisters s).host = s.host := rfl
@[simp] theorem wipeRegisters_listing : (wipeRegisters s).listing = s.listing := rfl
@[simp] theorem wipeRegisters_readData : (wipeRegisters s).readData = s.readData := rfl
@[simp] theorem wipeRegisters_returned : (wipeRegisters s).returned = s.returned := rfl
@[simp] theorem wipeRegisters_fresh : (wipeRegisters s).fresh = s.fresh := rfl

/-! ### beginCommand -/

@[simp] theorem beginCommand_x : (beginCommand s).x = s.x := rfl
@[simp] theorem beginCommand_saved : (beginCommand s).saved = s.saved := rfl
@[simp] theorem beginCommand_ks : (beginCommand s).ks = s.ks := rfl
@[simp] theorem beginCommand_k : (beginCommand s).k = s.k := rfl
@[simp] theorem beginCommand_n : (beginCommand s).n = s.n := rfl
@[simp] theorem beginCommand_ctr : (beginCommand s).ctr = s.desc.counter := rfl
@[simp] theorem beginCommand_ph : (beginCommand s).ph = .valid := rfl
@[simp] theorem beginCommand_blk : (beginCommand s).blk = 0 := rfl
@[simp] theorem beginCommand_dr : (beginCommand s).dr = 0 := rfl
@[simp] theorem beginCommand_qi : (beginCommand s).qi = 0 := rfl
@[simp] theorem beginCommand_nblk : (beginCommand s).nblk = 0 := rfl
@[simp] theorem beginCommand_desc : (beginCommand s).desc = s.desc := rfl
@[simp] theorem beginCommand_written : (beginCommand s).written = s.written := rfl
@[simp] theorem beginCommand_result : (beginCommand s).result = .none := rfl
@[simp] theorem beginCommand_mem : (beginCommand s).mem = s.mem := rfl
@[simp] theorem beginCommand_rejects : (beginCommand s).rejects = s.rejects := rfl
@[simp] theorem beginCommand_params : (beginCommand s).params = s.params := rfl
@[simp] theorem beginCommand_host : (beginCommand s).host = s.host := rfl
@[simp] theorem beginCommand_listing : (beginCommand s).listing = s.listing := rfl
@[simp] theorem beginCommand_readData : (beginCommand s).readData = s.readData := rfl
@[simp] theorem beginCommand_returned : (beginCommand s).returned = s.returned := rfl
@[simp] theorem beginCommand_fresh : (beginCommand s).fresh = s.fresh := rfl

/-! ### takeTrap -/

@[simp] theorem takeTrap_x (e : Exc) : (takeTrap e s).x = s.x := rfl
@[simp] theorem takeTrap_saved (e : Exc) : (takeTrap e s).saved = s.saved := rfl
@[simp] theorem takeTrap_ks (e : Exc) : (takeTrap e s).ks = s.ks := rfl
@[simp] theorem takeTrap_k (e : Exc) : (takeTrap e s).k = s.k := rfl
@[simp] theorem takeTrap_n (e : Exc) : (takeTrap e s).n = s.n := rfl
@[simp] theorem takeTrap_ctr (e : Exc) : (takeTrap e s).ctr = s.ctr := rfl
@[simp] theorem takeTrap_ph (e : Exc) : (takeTrap e s).ph = .idle := rfl
@[simp] theorem takeTrap_blk (e : Exc) : (takeTrap e s).blk = s.blk := rfl
@[simp] theorem takeTrap_dr (e : Exc) : (takeTrap e s).dr = s.dr := rfl
@[simp] theorem takeTrap_qi (e : Exc) : (takeTrap e s).qi = s.qi := rfl
@[simp] theorem takeTrap_nblk (e : Exc) : (takeTrap e s).nblk = s.nblk := rfl
@[simp] theorem takeTrap_desc (e : Exc) : (takeTrap e s).desc = s.desc := rfl
@[simp] theorem takeTrap_written (e : Exc) : (takeTrap e s).written = s.written := rfl
@[simp] theorem takeTrap_result (e : Exc) : (takeTrap e s).result = .err e := rfl
@[simp] theorem takeTrap_mem (e : Exc) : (takeTrap e s).mem = s.mem := rfl
@[simp] theorem takeTrap_rejects (e : Exc) : (takeTrap e s).rejects = s.rejects := rfl
@[simp] theorem takeTrap_params (e : Exc) : (takeTrap e s).params = s.params := rfl
@[simp] theorem takeTrap_host (e : Exc) : (takeTrap e s).host = s.host := rfl
@[simp] theorem takeTrap_listing (e : Exc) : (takeTrap e s).listing = s.listing := rfl
@[simp] theorem takeTrap_readData (e : Exc) : (takeTrap e s).readData = s.readData := rfl
@[simp] theorem takeTrap_returned (e : Exc) : (takeTrap e s).returned = s.returned := rfl
@[simp] theorem takeTrap_fresh (e : Exc) : (takeTrap e s).fresh = s.fresh := rfl

/-! ### endCommand -/

@[simp] theorem endCommand_x : (endCommand s).x = s.x := rfl
@[simp] theorem endCommand_saved : (endCommand s).saved = s.saved := rfl
@[simp] theorem endCommand_ks : (endCommand s).ks = s.ks := rfl
@[simp] theorem endCommand_k : (endCommand s).k = s.k := rfl
@[simp] theorem endCommand_n : (endCommand s).n = s.n := rfl
@[simp] theorem endCommand_ctr : (endCommand s).ctr = s.ctr := rfl
@[simp] theorem endCommand_ph : (endCommand s).ph = .idle := rfl
@[simp] theorem endCommand_blk : (endCommand s).blk = s.blk := rfl
@[simp] theorem endCommand_dr : (endCommand s).dr = s.dr := rfl
@[simp] theorem endCommand_qi : (endCommand s).qi = s.qi := rfl
@[simp] theorem endCommand_nblk : (endCommand s).nblk = s.nblk := rfl
@[simp] theorem endCommand_desc : (endCommand s).desc = s.desc := rfl
@[simp] theorem endCommand_written : (endCommand s).written = s.written := rfl
@[simp] theorem endCommand_result : (endCommand s).result = .ok s.ctr := rfl
@[simp] theorem endCommand_mem : (endCommand s).mem = s.mem := rfl
@[simp] theorem endCommand_rejects : (endCommand s).rejects = s.rejects := rfl
@[simp] theorem endCommand_params : (endCommand s).params = s.params := rfl
@[simp] theorem endCommand_host : (endCommand s).host = s.host := rfl
@[simp] theorem endCommand_listing : (endCommand s).listing = s.listing := rfl
@[simp] theorem endCommand_readData : (endCommand s).readData = s.readData := rfl
@[simp] theorem endCommand_returned : (endCommand s).returned = s.returned := rfl
@[simp] theorem endCommand_fresh : (endCommand s).fresh = s.fresh := rfl

/-! ### setBlockCount -/

@[simp] theorem setBlockCount_x : (setBlockCount s).x = s.x := rfl
@[simp] theorem setBlockCount_saved : (setBlockCount s).saved = s.saved := rfl
@[simp] theorem setBlockCount_ks : (setBlockCount s).ks = s.ks := rfl
@[simp] theorem setBlockCount_k : (setBlockCount s).k = s.k := rfl
@[simp] theorem setBlockCount_n : (setBlockCount s).n = s.n := rfl
@[simp] theorem setBlockCount_ctr : (setBlockCount s).ctr = s.ctr := rfl
@[simp] theorem setBlockCount_ph : (setBlockCount s).ph = s.ph := rfl
@[simp] theorem setBlockCount_blk : (setBlockCount s).blk = s.blk := rfl
@[simp] theorem setBlockCount_dr : (setBlockCount s).dr = s.dr := rfl
@[simp] theorem setBlockCount_qi : (setBlockCount s).qi = s.qi := rfl
@[simp] theorem setBlockCount_nblk : (setBlockCount s).nblk = BitVec.ofNat 32 (blockCount s.desc.inLen) := rfl
@[simp] theorem setBlockCount_desc : (setBlockCount s).desc = s.desc := rfl
@[simp] theorem setBlockCount_written : (setBlockCount s).written = s.written := rfl
@[simp] theorem setBlockCount_result : (setBlockCount s).result = s.result := rfl
@[simp] theorem setBlockCount_mem : (setBlockCount s).mem = s.mem := rfl
@[simp] theorem setBlockCount_rejects : (setBlockCount s).rejects = s.rejects := rfl
@[simp] theorem setBlockCount_params : (setBlockCount s).params = s.params := rfl
@[simp] theorem setBlockCount_host : (setBlockCount s).host = s.host := rfl
@[simp] theorem setBlockCount_listing : (setBlockCount s).listing = s.listing := rfl
@[simp] theorem setBlockCount_readData : (setBlockCount s).readData = s.readData := rfl
@[simp] theorem setBlockCount_returned : (setBlockCount s).returned = s.returned := rfl
@[simp] theorem setBlockCount_fresh : (setBlockCount s).fresh = s.fresh := rfl

/-! ### advanceCounter -/

@[simp] theorem advanceCounter_x : (advanceCounter s).x = s.x := rfl
@[simp] theorem advanceCounter_saved : (advanceCounter s).saved = s.saved := rfl
@[simp] theorem advanceCounter_ks : (advanceCounter s).ks = s.ks := rfl
@[simp] theorem advanceCounter_k : (advanceCounter s).k = s.k := rfl
@[simp] theorem advanceCounter_n : (advanceCounter s).n = s.n := rfl
@[simp] theorem advanceCounter_ctr : (advanceCounter s).ctr = s.ctr + 1 := rfl
@[simp] theorem advanceCounter_ph : (advanceCounter s).ph = s.ph := rfl
@[simp] theorem advanceCounter_blk : (advanceCounter s).blk = s.blk := rfl
@[simp] theorem advanceCounter_dr : (advanceCounter s).dr = s.dr := rfl
@[simp] theorem advanceCounter_qi : (advanceCounter s).qi = s.qi := rfl
@[simp] theorem advanceCounter_nblk : (advanceCounter s).nblk = s.nblk := rfl
@[simp] theorem advanceCounter_desc : (advanceCounter s).desc = s.desc := rfl
@[simp] theorem advanceCounter_written : (advanceCounter s).written = s.written := rfl
@[simp] theorem advanceCounter_result : (advanceCounter s).result = s.result := rfl
@[simp] theorem advanceCounter_mem : (advanceCounter s).mem = s.mem := rfl
@[simp] theorem advanceCounter_rejects : (advanceCounter s).rejects = s.rejects := rfl
@[simp] theorem advanceCounter_params : (advanceCounter s).params = s.params := rfl
@[simp] theorem advanceCounter_host : (advanceCounter s).host = s.host := rfl
@[simp] theorem advanceCounter_listing : (advanceCounter s).listing = s.listing := rfl
@[simp] theorem advanceCounter_readData : (advanceCounter s).readData = s.readData := rfl
@[simp] theorem advanceCounter_returned : (advanceCounter s).returned = s.returned := rfl
@[simp] theorem advanceCounter_fresh : (advanceCounter s).fresh = s.fresh := rfl

/-! ### advanceBlock -/

@[simp] theorem advanceBlock_x : (advanceBlock s).x = s.x := rfl
@[simp] theorem advanceBlock_saved : (advanceBlock s).saved = s.saved := rfl
@[simp] theorem advanceBlock_ks : (advanceBlock s).ks = s.ks := rfl
@[simp] theorem advanceBlock_k : (advanceBlock s).k = s.k := rfl
@[simp] theorem advanceBlock_n : (advanceBlock s).n = s.n := rfl
@[simp] theorem advanceBlock_ctr : (advanceBlock s).ctr = s.ctr := rfl
@[simp] theorem advanceBlock_ph : (advanceBlock s).ph = s.ph := rfl
@[simp] theorem advanceBlock_blk : (advanceBlock s).blk = s.blk + 1 := rfl
@[simp] theorem advanceBlock_dr : (advanceBlock s).dr = s.dr := rfl
@[simp] theorem advanceBlock_qi : (advanceBlock s).qi = s.qi := rfl
@[simp] theorem advanceBlock_nblk : (advanceBlock s).nblk = s.nblk := rfl
@[simp] theorem advanceBlock_desc : (advanceBlock s).desc = s.desc := rfl
@[simp] theorem advanceBlock_written : (advanceBlock s).written = s.written := rfl
@[simp] theorem advanceBlock_result : (advanceBlock s).result = s.result := rfl
@[simp] theorem advanceBlock_mem : (advanceBlock s).mem = s.mem := rfl
@[simp] theorem advanceBlock_rejects : (advanceBlock s).rejects = s.rejects := rfl
@[simp] theorem advanceBlock_params : (advanceBlock s).params = s.params := rfl
@[simp] theorem advanceBlock_host : (advanceBlock s).host = s.host := rfl
@[simp] theorem advanceBlock_listing : (advanceBlock s).listing = s.listing := rfl
@[simp] theorem advanceBlock_readData : (advanceBlock s).readData = s.readData := rfl
@[simp] theorem advanceBlock_returned : (advanceBlock s).returned = s.returned := rfl
@[simp] theorem advanceBlock_fresh : (advanceBlock s).fresh = s.fresh := rfl

/-! ### returnValue -/

@[simp] theorem returnValue_x (v : Nat) : (returnValue v s).x = s.x := rfl
@[simp] theorem returnValue_saved (v : Nat) : (returnValue v s).saved = s.saved := rfl
@[simp] theorem returnValue_ks (v : Nat) : (returnValue v s).ks = s.ks := rfl
@[simp] theorem returnValue_k (v : Nat) : (returnValue v s).k = s.k := rfl
@[simp] theorem returnValue_n (v : Nat) : (returnValue v s).n = s.n := rfl
@[simp] theorem returnValue_ctr (v : Nat) : (returnValue v s).ctr = s.ctr := rfl
@[simp] theorem returnValue_ph (v : Nat) : (returnValue v s).ph = s.ph := rfl
@[simp] theorem returnValue_blk (v : Nat) : (returnValue v s).blk = s.blk := rfl
@[simp] theorem returnValue_dr (v : Nat) : (returnValue v s).dr = s.dr := rfl
@[simp] theorem returnValue_qi (v : Nat) : (returnValue v s).qi = s.qi := rfl
@[simp] theorem returnValue_nblk (v : Nat) : (returnValue v s).nblk = s.nblk := rfl
@[simp] theorem returnValue_desc (v : Nat) : (returnValue v s).desc = s.desc := rfl
@[simp] theorem returnValue_written (v : Nat) : (returnValue v s).written = s.written := rfl
@[simp] theorem returnValue_result (v : Nat) : (returnValue v s).result = s.result := rfl
@[simp] theorem returnValue_mem (v : Nat) : (returnValue v s).mem = s.mem := rfl
@[simp] theorem returnValue_rejects (v : Nat) : (returnValue v s).rejects = s.rejects := rfl
@[simp] theorem returnValue_params (v : Nat) : (returnValue v s).params = s.params := rfl
@[simp] theorem returnValue_host (v : Nat) : (returnValue v s).host = s.host := rfl
@[simp] theorem returnValue_listing (v : Nat) : (returnValue v s).listing = s.listing := rfl
@[simp] theorem returnValue_readData (v : Nat) : (returnValue v s).readData = v := rfl
@[simp] theorem returnValue_returned (v : Nat) : (returnValue v s).returned = s.returned := rfl
@[simp] theorem returnValue_fresh (v : Nat) : (returnValue v s).fresh = s.fresh := rfl

/-! ### returnAny -/

@[simp] theorem returnAny_x (w : Nat) : (returnAny w s).x = s.x := rfl
@[simp] theorem returnAny_saved (w : Nat) : (returnAny w s).saved = s.saved := rfl
@[simp] theorem returnAny_ks (w : Nat) : (returnAny w s).ks = s.ks := rfl
@[simp] theorem returnAny_k (w : Nat) : (returnAny w s).k = s.k := rfl
@[simp] theorem returnAny_n (w : Nat) : (returnAny w s).n = s.n := rfl
@[simp] theorem returnAny_ctr (w : Nat) : (returnAny w s).ctr = s.ctr := rfl
@[simp] theorem returnAny_ph (w : Nat) : (returnAny w s).ph = s.ph := rfl
@[simp] theorem returnAny_blk (w : Nat) : (returnAny w s).blk = s.blk := rfl
@[simp] theorem returnAny_dr (w : Nat) : (returnAny w s).dr = s.dr := rfl
@[simp] theorem returnAny_qi (w : Nat) : (returnAny w s).qi = s.qi := rfl
@[simp] theorem returnAny_nblk (w : Nat) : (returnAny w s).nblk = s.nblk := rfl
@[simp] theorem returnAny_desc (w : Nat) : (returnAny w s).desc = s.desc := rfl
@[simp] theorem returnAny_written (w : Nat) : (returnAny w s).written = s.written := rfl
@[simp] theorem returnAny_result (w : Nat) : (returnAny w s).result = s.result := rfl
@[simp] theorem returnAny_mem (w : Nat) : (returnAny w s).mem = s.mem := rfl
@[simp] theorem returnAny_rejects (w : Nat) : (returnAny w s).rejects = s.rejects := rfl
@[simp] theorem returnAny_params (w : Nat) : (returnAny w s).params = s.params := rfl
@[simp] theorem returnAny_host (w : Nat) : (returnAny w s).host = s.host := rfl
@[simp] theorem returnAny_listing (w : Nat) : (returnAny w s).listing = s.listing := rfl
@[simp] theorem returnAny_readData (w : Nat) : (returnAny w s).readData = Config.freeValue s.fresh % 2 ^ w := rfl
@[simp] theorem returnAny_returned (w : Nat) : (returnAny w s).returned = s.returned := rfl
@[simp] theorem returnAny_fresh (w : Nat) : (returnAny w s).fresh = s.fresh + 1 := rfl

/-! ### drawFree -/

@[simp] theorem drawFree_x : (drawFree s).x = s.x := rfl
@[simp] theorem drawFree_saved : (drawFree s).saved = s.saved := rfl
@[simp] theorem drawFree_ks : (drawFree s).ks = s.ks := rfl
@[simp] theorem drawFree_k : (drawFree s).k = s.k := rfl
@[simp] theorem drawFree_n : (drawFree s).n = s.n := rfl
@[simp] theorem drawFree_ctr : (drawFree s).ctr = s.ctr := rfl
@[simp] theorem drawFree_ph : (drawFree s).ph = s.ph := rfl
@[simp] theorem drawFree_blk : (drawFree s).blk = s.blk := rfl
@[simp] theorem drawFree_dr : (drawFree s).dr = s.dr := rfl
@[simp] theorem drawFree_qi : (drawFree s).qi = s.qi := rfl
@[simp] theorem drawFree_nblk : (drawFree s).nblk = s.nblk := rfl
@[simp] theorem drawFree_desc : (drawFree s).desc = s.desc := rfl
@[simp] theorem drawFree_written : (drawFree s).written = s.written := rfl
@[simp] theorem drawFree_result : (drawFree s).result = s.result := rfl
@[simp] theorem drawFree_mem : (drawFree s).mem = s.mem := rfl
@[simp] theorem drawFree_rejects : (drawFree s).rejects = s.rejects := rfl
@[simp] theorem drawFree_params : (drawFree s).params = s.params := rfl
@[simp] theorem drawFree_host : (drawFree s).host = s.host := rfl
@[simp] theorem drawFree_listing : (drawFree s).listing = s.listing := rfl
@[simp] theorem drawFree_readData : (drawFree s).readData = s.readData := rfl
@[simp] theorem drawFree_returned : (drawFree s).returned = s.returned := rfl
@[simp] theorem drawFree_fresh : (drawFree s).fresh = s.fresh + 1 := rfl

/-! ### writeDescriptor -/

@[simp] theorem writeDescriptor_x (r : DescReg) (v : Nat) : (writeDescriptor r v s).x = s.x := rfl
@[simp] theorem writeDescriptor_saved (r : DescReg) (v : Nat) : (writeDescriptor r v s).saved = s.saved := rfl
@[simp] theorem writeDescriptor_ks (r : DescReg) (v : Nat) : (writeDescriptor r v s).ks = s.ks := rfl
@[simp] theorem writeDescriptor_k (r : DescReg) (v : Nat) : (writeDescriptor r v s).k = s.k := rfl
@[simp] theorem writeDescriptor_n (r : DescReg) (v : Nat) : (writeDescriptor r v s).n = s.n := rfl
@[simp] theorem writeDescriptor_ctr (r : DescReg) (v : Nat) : (writeDescriptor r v s).ctr = s.ctr := rfl
@[simp] theorem writeDescriptor_ph (r : DescReg) (v : Nat) : (writeDescriptor r v s).ph = s.ph := rfl
@[simp] theorem writeDescriptor_blk (r : DescReg) (v : Nat) : (writeDescriptor r v s).blk = s.blk := rfl
@[simp] theorem writeDescriptor_dr (r : DescReg) (v : Nat) : (writeDescriptor r v s).dr = s.dr := rfl
@[simp] theorem writeDescriptor_qi (r : DescReg) (v : Nat) : (writeDescriptor r v s).qi = s.qi := rfl
@[simp] theorem writeDescriptor_nblk (r : DescReg) (v : Nat) : (writeDescriptor r v s).nblk = s.nblk := rfl
@[simp] theorem writeDescriptor_desc (r : DescReg) (v : Nat) : (writeDescriptor r v s).desc = s.desc.set r v := rfl
@[simp] theorem writeDescriptor_written (r : DescReg) (v : Nat) : (writeDescriptor r v s).written = s.written.set r.number true := rfl
@[simp] theorem writeDescriptor_result (r : DescReg) (v : Nat) : (writeDescriptor r v s).result = s.result := rfl
@[simp] theorem writeDescriptor_mem (r : DescReg) (v : Nat) : (writeDescriptor r v s).mem = s.mem := rfl
@[simp] theorem writeDescriptor_rejects (r : DescReg) (v : Nat) : (writeDescriptor r v s).rejects = s.rejects := rfl
@[simp] theorem writeDescriptor_params (r : DescReg) (v : Nat) : (writeDescriptor r v s).params = s.params := rfl
@[simp] theorem writeDescriptor_host (r : DescReg) (v : Nat) : (writeDescriptor r v s).host = s.host := rfl
@[simp] theorem writeDescriptor_listing (r : DescReg) (v : Nat) : (writeDescriptor r v s).listing = s.listing := rfl
@[simp] theorem writeDescriptor_readData (r : DescReg) (v : Nat) : (writeDescriptor r v s).readData = s.readData := rfl
@[simp] theorem writeDescriptor_returned (r : DescReg) (v : Nat) : (writeDescriptor r v s).returned = s.returned := rfl
@[simp] theorem writeDescriptor_fresh (r : DescReg) (v : Nat) : (writeDescriptor r v s).fresh = s.fresh := rfl

/-! ### placeWord -/

@[simp] theorem placeWord_x (nbits w : Nat) : (placeWord s nbits w).x = s.x := rfl
@[simp] theorem placeWord_saved (nbits w : Nat) : (placeWord s nbits w).saved = s.saved := rfl
@[simp] theorem placeWord_ks (nbits w : Nat) : (placeWord s nbits w).ks = s.ks := rfl
@[simp] theorem placeWord_k (nbits w : Nat) : (placeWord s nbits w).k = s.k := rfl
@[simp] theorem placeWord_n (nbits w : Nat) : (placeWord s nbits w).n = s.n := rfl
@[simp] theorem placeWord_ctr (nbits w : Nat) : (placeWord s nbits w).ctr = s.ctr := rfl
@[simp] theorem placeWord_ph (nbits w : Nat) : (placeWord s nbits w).ph = s.ph := rfl
@[simp] theorem placeWord_blk (nbits w : Nat) : (placeWord s nbits w).blk = s.blk := rfl
@[simp] theorem placeWord_dr (nbits w : Nat) : (placeWord s nbits w).dr = s.dr := rfl
@[simp] theorem placeWord_qi (nbits w : Nat) : (placeWord s nbits w).qi = s.qi := rfl
@[simp] theorem placeWord_nblk (nbits w : Nat) : (placeWord s nbits w).nblk = s.nblk := rfl
@[simp] theorem placeWord_desc (nbits w : Nat) : (placeWord s nbits w).desc = s.desc := rfl
@[simp] theorem placeWord_written (nbits w : Nat) : (placeWord s nbits w).written = s.written := rfl
@[simp] theorem placeWord_result (nbits w : Nat) : (placeWord s nbits w).result = s.result := rfl
@[simp] theorem placeWord_mem (nbits w : Nat) : (placeWord s nbits w).mem = s.mem := rfl
@[simp] theorem placeWord_rejects (nbits w : Nat) : (placeWord s nbits w).rejects = s.rejects := rfl
@[simp] theorem placeWord_params (nbits w : Nat) : (placeWord s nbits w).params = s.params := rfl
@[simp] theorem placeWord_host (nbits w : Nat) : (placeWord s nbits w).host = s.host := rfl
@[simp] theorem placeWord_listing (nbits w : Nat) : (placeWord s nbits w).listing = [BitVec.ofNat 32 (w % 2 ^ nbits)] := rfl
@[simp] theorem placeWord_readData (nbits w : Nat) : (placeWord s nbits w).readData = s.readData := rfl
@[simp] theorem placeWord_returned (nbits w : Nat) : (placeWord s nbits w).returned = s.returned := rfl
@[simp] theorem placeWord_fresh (nbits w : Nat) : (placeWord s nbits w).fresh = s.fresh := rfl

/-! ### resetEngine -/

@[simp] theorem resetEngine_x : (resetEngine s).x = State.reset.x := rfl
@[simp] theorem resetEngine_saved : (resetEngine s).saved = State.reset.saved := rfl
@[simp] theorem resetEngine_ks : (resetEngine s).ks = State.reset.ks := rfl
@[simp] theorem resetEngine_k : (resetEngine s).k = State.reset.k := rfl
@[simp] theorem resetEngine_n : (resetEngine s).n = State.reset.n := rfl
@[simp] theorem resetEngine_ctr : (resetEngine s).ctr = State.reset.ctr := rfl
@[simp] theorem resetEngine_ph : (resetEngine s).ph = State.reset.ph := rfl
@[simp] theorem resetEngine_blk : (resetEngine s).blk = State.reset.blk := rfl
@[simp] theorem resetEngine_dr : (resetEngine s).dr = State.reset.dr := rfl
@[simp] theorem resetEngine_qi : (resetEngine s).qi = State.reset.qi := rfl
@[simp] theorem resetEngine_nblk : (resetEngine s).nblk = State.reset.nblk := rfl
@[simp] theorem resetEngine_desc : (resetEngine s).desc = State.reset.desc := rfl
@[simp] theorem resetEngine_written : (resetEngine s).written = State.reset.written := rfl
@[simp] theorem resetEngine_result : (resetEngine s).result = State.reset.result := rfl
@[simp] theorem resetEngine_mem : (resetEngine s).mem = s.mem := rfl
@[simp] theorem resetEngine_rejects : (resetEngine s).rejects = s.rejects := rfl
@[simp] theorem resetEngine_params : (resetEngine s).params = s.params := rfl
@[simp] theorem resetEngine_host : (resetEngine s).host = s.host := rfl
@[simp] theorem resetEngine_listing : (resetEngine s).listing = s.listing := rfl
@[simp] theorem resetEngine_readData : (resetEngine s).readData = s.readData := rfl
@[simp] theorem resetEngine_returned : (resetEngine s).returned = s.returned := rfl
@[simp] theorem resetEngine_fresh : (resetEngine s).fresh = s.fresh := rfl

end Sys2Proof.Machine
end

