-- ==== Sys2Proof/Laws/Ops.lean ====
section
/-! SUPPORT. What each shared operation can do: when it answers a next state, what that state is; what the overlay leaves in
memory; when the ranges of a command are legal. -/

namespace Sys2Proof.Machine

/-- A sequence answers a next state exactly when both of its parts do. -/
theorem andThen_eq_next {o : Host.Outcome State Fault Refusal} {f : State → Host.Outcome State Fault Refusal} {t : State} :
    andThen o f = .next t ↔ ∃ s, o = .next s ∧ f s = .next t := by
  cases o <;> simp [andThen]

@[simp] theorem andThen_next (s : State) (f : State → Host.Outcome State Fault Refusal) : andThen (.next s) f = f s := rfl
@[simp] theorem andThen_fault (r : Fault) (f : State → Host.Outcome State Fault Refusal) :
    andThen (.fault r) f = .fault r := rfl
@[simp] theorem andThen_refused (r : Refusal) (f : State → Host.Outcome State Fault Refusal) :
    andThen (.refused r) f = .refused r := rfl

/-- Sequences associate. -/
theorem andThen_assoc (o : Host.Outcome State Fault Refusal) (f g : State → Host.Outcome State Fault Refusal) :
    andThen (andThen o f) g = andThen o fun s => andThen (f s) g := by
  cases o <;> rfl

/-- LDKN's operation answers a next state when its 44 reads can be made: the latch, nothing else. -/
theorem loadKeyNonce_eq_next {s t : State} :
    loadKeyNonce s = .next t ↔ firstFault s (loadAccesses s) = none ∧ t = latchWords s := by
  unfold loadKeyNonce
  cases h : firstFault s (loadAccesses s) with
  | none => simp [eq_comm]
  | some f => simp

/-- The 44 reads can be made exactly when each key and nonce byte can be read. -/
theorem loadAccesses_accepted {s : State} :
    firstFault s (loadAccesses s) = none ↔
      (∀ j < 32, accessFault s .read (s.desc.keyAddr + j) = none) ∧
      (∀ j < 12, accessFault s .read (s.desc.nonceAddr + j) = none) := by
  rw [firstFault_eq_none]
  simp only [loadAccesses, readsOf, List.mem_append, List.mem_map, List.mem_range, Config.keySize, Config.nonceSize]
  constructor
  · intro h
    exact ⟨fun j hj => h (.read, s.desc.keyAddr + j) (.inl ⟨j, hj, rfl⟩),
      fun j hj => h (.read, s.desc.nonceAddr + j) (.inr ⟨j, hj, rfl⟩)⟩
  · rintro ⟨hk, hn⟩ p (⟨j, hj, rfl⟩ | ⟨j, hj, rfl⟩)
    · exact hk j hj
    · exact hn j hj

/-- The overlay answers a next state when nothing overlaps partially and its accesses can be made: the memory, nothing else. -/
theorem overlay_eq_next {m : Nat} {s t : State} :
    overlay m s = .next t ↔
      overlayRefusal s m = none ∧ firstFault s (overlayAccesses s m) = none ∧ t = { s with mem := overlayMem s m } := by
  unfold overlay
  cases h : overlayRefusal s m with
  | some r => simp
  | none =>
    cases h' : firstFault s (overlayAccesses s m) with
    | none => simp [eq_comm]
    | some f => simp

/-- The accesses of the overlay can be made exactly when each of its bytes can be read and written. -/
theorem overlayAccesses_accepted {m : Nat} {s : State} :
    firstFault s (overlayAccesses s m) = none ↔
      ∀ j < m, accessFault s .read (inByteAddr s j) = none ∧ accessFault s .write (outByteAddr s j) = none := by
  rw [firstFault_eq_none]
  simp only [overlayAccesses, List.mem_flatMap, List.mem_range]
  constructor
  · intro h j hj
    exact ⟨h (.read, inByteAddr s j) ⟨j, hj, by simp⟩, h (.write, outByteAddr s j) ⟨j, hj, by simp⟩⟩
  · rintro h p ⟨j, hj, hp⟩
    simp only [List.mem_cons, List.not_mem_nil, or_false] at hp
    rcases hp with rfl | rfl
    · exact (h j hj).1
    · exact (h j hj).2

/-- The overlay keeps the memory's canonical form. -/
theorem overlayMem_wf {s : State} (h : Memory.wf s.mem) (m : Nat) : Memory.wf (overlayMem s m) := by
  induction m with
  | zero => exact h
  | succ j ih => exact memStore_wf _ _ ih

/-- The overlay leaves every byte it does not write. -/
theorem overlayMem_other {s : State} {m a : Nat} (h : ∀ j < m, a ≠ outByteAddr s j) :
    memByte (overlayMem s m) a = memByte s.mem a := by
  induction m with
  | zero => rfl
  | succ j ih =>
    rw [overlayMem, memByte_memStore_other _ _ _ _ (h j j.lt_succ_self)]
    exact ih fun i hi => h i (by omega)

/-- No partial overlap, in plain arithmetic (R45). -/
theorem overlapsPartially_eq_false {a b len : Nat} :
    overlapsPartially a b len = false ↔ len = 0 ∨ a = b ∨ a + len ≤ b ∨ b + len ≤ a := by
  simp only [overlapsPartially, rangesMeet, Bool.and_eq_false_iff, bne_eq_false_iff_eq, decide_eq_false_iff_not]
  omega

/-- Where input and output do not overlap partially, each output byte is its input byte XOR its keystream byte (R140). -/
theorem overlayMem_byte {s : State} (h : Memory.wf s.mem) {m j : Nat} (hj : j < m)
    (hov : overlapsPartially (inByteAddr s 0) (outByteAddr s 0) m = false) :
    memByte (overlayMem s m) (outByteAddr s j) = memByte s.mem (inByteAddr s j) ^^^ s.ks.getD j 0 := by
  rw [overlapsPartially_eq_false] at hov
  simp only [inByteAddr, outByteAddr, Nat.add_zero] at hov
  have key : ∀ i ≤ m, j < i → memByte (overlayMem s i) (outByteAddr s j)
      = memByte s.mem (inByteAddr s j) ^^^ s.ks.getD j 0 := by
    intro i
    induction i with
    | zero => intro _ h0; omega
    | succ i ih =>
      intro hi hji
      rw [overlayMem]
      by_cases hij : j = i
      · subst hij
        rw [memByte_memStore_same _ _ _ (overlayMem_wf h _)]
        congr 1
        refine overlayMem_other fun l hl => ?_
        simp only [inByteAddr, outByteAddr]
        omega
      · rw [memByte_memStore_other _ _ _ _ (by simp only [outByteAddr]; omega)]
        exact ih (by omega) (by omega)
  exact key m le_rfl hj

/-- The ranges the sequencer accepts are the legal ones (R45 to R47). -/
theorem rangeRefusal_eq_none {s : State} : rangeRefusal s = none ↔ Safety.LegalRanges s.params s.desc := by
  have e1 : ∀ {P : Prop} [Decidable P] {r : Refusal} {o : Option Refusal},
      (if P then some r else o) = none ↔ ¬ P ∧ o = none := by
    intro P _ r o; split <;> simp [*]
  have e2 : ∀ {a n b m : Nat}, ¬ (rangesMeet a n b m = true) ↔ n = 0 ∨ m = 0 ∨ a + n ≤ b ∨ b + m ≤ a := by
    intro a n b m
    simp only [rangesMeet, Bool.and_eq_true, decide_eq_true_eq]
    omega
  simp only [rangeRefusal, e1, and_true]
  simp only [e2, Bool.not_eq_true, overlapsPartially_eq_false, Config.keySize, Config.nonceSize]
  constructor
  · rintro ⟨h1, h2, h3, h4, h5, h6, h7⟩
    exact ⟨by omega, by omega, by omega, by omega, by omega, by omega, by omega⟩
  · rintro ⟨h1, h2, h3, h4, h5, h6, h7⟩
    exact ⟨by omega, by omega, by omega, by omega, by omega, by omega, by omega⟩

/-- VALID finds nothing exactly when the four preconditions hold (R111). -/
theorem entryError_eq_none {d : Descriptor} :
    entryError d = none ↔
      d.outLen = d.inLen ∧ d.nonceLen = 12 ∧ d.keyLen = 32 ∧ (d.rounds = 8 ∨ d.rounds = 12 ∨ d.rounds = 20) := by
  have e1 : ∀ {P : Prop} [Decidable P] {e : Exc} {o : Option Exc},
      (if P then some e else o) = none ↔ ¬ P ∧ o = none := by
    intro P _ e o; split <;> simp [*]
  simp only [entryError, e1, Config.keySize, Config.nonceSize, legalRounds, ne_eq, not_not, and_true, Bool.not_eq_true',
    Bool.not_eq_false, Bool.or_eq_true, beq_iff_eq, or_assoc]

/-- The legal round counts, as a proposition (R66). -/
theorem legalRounds_eq_true {r : Word} : legalRounds r = true ↔ r = 8 ∨ r = 12 ∨ r = 20 := by
  simp only [legalRounds, Bool.or_eq_true, beq_iff_eq, or_assoc]

/-- BLOCK goes on exactly when ROUNDS is legal and X = S, and then as its expansion (R97). -/
theorem execBlock_eq_next {s t : State} :
    execBlock s = .next t ↔
      (s.desc.rounds = 8 ∨ s.desc.rounds = 12 ∨ s.desc.rounds = 20) ∧ s.x = s.saved ∧ t = transformBlock s := by
  rw [← legalRounds_eq_true]
  unfold execBlock
  cases legalRounds s.desc.rounds with
  | false => simp
  | true => by_cases hx : s.x = s.saved <;> simp [hx, eq_comm]

/-- XFORM of a command with legal ranges (R116). -/
theorem execXform_legal {s : State} (h : Safety.LegalRanges s.params s.desc) : execXform s = runCommand s := by
  simp [execXform, rangeRefusal_eq_none.2 h]

/-- A command with illegal ranges has no meaning (R191). -/
theorem execXform_illegal {s : State} (h : ¬Safety.LegalRanges s.params s.desc) : ∃ r, execXform s = .refused r := by
  rw [← rangeRefusal_eq_none] at h
  obtain ⟨r, hr⟩ := Option.ne_none_iff_exists'.1 h
  exact ⟨r, by simp [execXform, hr]⟩

/-- START goes on exactly when every descriptor register is written and the ranges are legal (R110, R182, R183). -/
theorem startMove_eq_next {s t : State} :
    startMove s = .next t ↔ firstUnwritten s = none ∧ Safety.LegalRanges s.params s.desc ∧ t = beginCommand s := by
  unfold startMove
  cases hu : firstUnwritten s with
  | some r => simp
  | none =>
    rw [← rangeRefusal_eq_none]
    cases hr : rangeRefusal s <;> simp [eq_comm]

end Sys2Proof.Machine
end

