-- ==== Sys2Proof/Laws/PerInstr.lean ====
section
/-! SUPPORT. For every instruction: its word lies in its row of the opcode table, `cw & mask = match` (30_encoding.md R64). -/

namespace Sys2Proof.Laws.TableRow

/-- The `match` and `mask` columns of opcode_table.json. -/
def row : Instr → Word × Word
  | .valid => (0x01000000, 0xFFFFFFFF)
  | .ovfchk => (0x02000000, 0xFFFFFFFF)
  | .ldkn => (0x03000000, 0xFFFFFFFF)
  | .init => (0x10000000, 0xFFFFFFFF)
  | .qr _ _ _ _ => (0x20000000, 0xFFFF0000)
  | .colr => (0x21000000, 0xFFFFFFFF)
  | .diagr => (0x22000000, 0xFFFFFFFF)
  | .dround => (0x23000000, 0xFFFFFFFF)
  | .ffadd => (0x28000000, 0xFFFFFFFF)
  | .ser => (0x29000000, 0xFFFFFFFF)
  | .block => (0x2F000000, 0xFFFFFFFF)
  | .xorb _ => (0x30000000, 0xFFFFFF00)
  | .wipe => (0x31000000, 0xFFFFFFFF)
  | .ctrinc => (0x40000000, 0xFFFFFFFF)
  | .ret => (0x41000000, 0xFFFFFFFF)
  | .xform => (0x80000000, 0xFFFFFFFF)

/-- The encoded word selects the instruction's row of the table. -/
def Statement (i : Instr) : Prop := encode i &&& (row i).2 = (row i).1

theorem valid : Statement .valid := by unfold Statement; decide
theorem ovfchk : Statement .ovfchk := by unfold Statement; decide
theorem ldkn : Statement .ldkn := by unfold Statement; decide
theorem init : Statement .init := by unfold Statement; decide
theorem qr (a b c d : BitVec 4) : Statement (.qr a b c d) := by
  simp only [Statement, encode, row, Instr.op, Instr.operandField]
  ext k hk
  interval_cases k <;> simp
theorem colr : Statement .colr := by unfold Statement; decide
theorem diagr : Statement .diagr := by unfold Statement; decide
theorem dround : Statement .dround := by unfold Statement; decide
theorem ffadd : Statement .ffadd := by unfold Statement; decide
theorem ser : Statement .ser := by unfold Statement; decide
theorem block : Statement .block := by unfold Statement; decide
theorem xorb (m : Byte) : Statement (.xorb m) := by
  simp only [Statement, encode, row, Instr.op, Instr.operandField]
  ext k hk
  interval_cases k <;> simp
theorem wipe : Statement .wipe := by unfold Statement; decide
theorem ctrinc : Statement .ctrinc := by unfold Statement; decide
theorem ret : Statement .ret := by unfold Statement; decide
theorem xform : Statement .xform := by unfold Statement; decide

end Sys2Proof.Laws.TableRow
end

