-- ==== Sys2Proof/Laws/Step.lean ====
section
/-! SUPPORT. What one step can be: the three turns, and the two shapes of the engine's own step. -/

namespace Sys2Proof.Machine

/-- Without a listing and a host move the step is the engine's (R8, R115). -/
theorem step_alone {s : State} (h : Safety.EngineAlone s) : step s = engineStep s := by
  obtain ⟨hl, hh⟩ := h
  simp [step, turn, hl, hh]

/-- Without a listing, a waiting host move is the step (R8). -/
theorem step_host {s : State} {move : HostMove} {rest : List HostMove} (hl : s.listing = []) (hh : s.host = move :: rest) :
    step s = hostStep move rest s := by
  simp [step, turn, hl, hh]

/-- An idle engine stays as it is (R115). -/
theorem engineStep_idle {s : State} (h : s.ph = .idle) : engineStep s = .next s := by
  simp [engineStep, h]

/-- What a busy engine's step to a next state was: legal ranges, a word issued, its effect, and the move of PC (R115). -/
theorem engineStep_busy_cases {s t : State} (hb : s.ph ≠ .idle) (h : engineStep s = .next t) :
    rangeRefusal s = none ∧ ∃ i u, issue s = some i ∧ exec i s = .next u ∧ t = advance u := by
  unfold engineStep at h
  rw [if_neg hb] at h
  cases hr : rangeRefusal s with
  | some r => simp [hr] at h
  | none =>
    cases hi : issue s with
    | none => simp [hr, hi] at h
    | some i =>
      simp only [hr, hi] at h
      obtain ⟨u, hu, ht⟩ := andThen_eq_next.1 h
      refine ⟨rfl, i, u, rfl, hu, ?_⟩
      simpa using ht.symm

end Sys2Proof.Machine
end

