-- ==== Sys2Proof/Tests/Slice0.lean ====
section
/-! SUPPORT. The model's own tests: ill-formed terms, words written out from the spec, one step of each instruction against a value
of 95_test_vectors.md, and for every statement with hypotheses a concrete state that meets them. -/

namespace Sys2Proof.Tests

open Sys2Proof.Machine Sys2Proof.Safety

/-! ### Well-formedness and decoding -/

theorem test_wf_refuses_equal_indices : (Instr.qr 2 7 8 8).wf = false := by decide
theorem test_wf_refuses_another_order : (Instr.qr 0 4 12 8).wf = false := by decide
theorem test_wf_refuses_zero_bytes : (Instr.xorb 0).wf = false := by decide
theorem test_wf_refuses_65_bytes : (Instr.xorb 65).wf = false := by decide

/-- 30_encoding.md R64 and R71, V30: one word of every constructor. -/
theorem test_decode_format_z :
    [0x01000000, 0x02000000, 0x03000000, 0x10000000, 0x21000000, 0x22000000, 0x23000000, 0x28000000, 0x29000000, 0x2F000000,
      0x31000000, 0x40000000, 0x41000000, 0x80000000].map (decodeTableWord 32)
    = [some .valid, some .ovfchk, some .ldkn, some .init, some .colr, some .diagr, some .dround, some .ffadd, some .ser,
      some .block, some .wipe, some .ctrinc, some .ret, some .xform] := by decide
theorem test_decode_qr : [0x2000048C, 0x200016BC, 0x2000349E].map (decodeTableWord 32)
    = [some (.qr 0 4 8 12), some (.qr 1 6 11 12), some (.qr 3 4 9 14)] := by decide
theorem test_decode_xorb : [0x30000001, 0x30000006, 0x30000040].map (decodeTableWord 32)
    = [some (.xorb 1), some (.xorb 6), some (.xorb 64)] := by decide
theorem test_decode_illegal :
    [0x200004C8, 0x20002788, 0x20000000, 0x2001048C, 0x30000000, 0x30000041, 0x30000140, 0x10000001, 0x00000000, 0xFFFFFFFF,
      0x04000000, 0x2A000000, 0x42000000].map (decodeTableWord 32) = List.replicate 13 none := by decide
theorem test_decode_names_the_error : decode 0x20002788 = .error (.tupleNotInTable 2 7 8 8) := by decide
theorem test_encode_tuples :
    (List.range 8).map (fun q => encode (tupleInstr (BitVec.ofNat 3 q)))
    = [0x2000048C, 0x2000159D, 0x200026AE, 0x200037BF, 0x200005AF, 0x200016BC, 0x2000278D, 0x2000349E] := by decide
theorem test_assemble_lines :
    assembleListing ["QR 2,7,8,13", "XORB 6   ; last block", "INIT"] = some [0x2000278D, 0x30000006, 0x10000000] := by decide

/-! ### Small states -/

/-- The state a step leads to, or the reset state. -/
def after (o : Host.Outcome State Fault Refusal) : State :=
  match o with
  | .next s => s
  | .fault _ => State.reset
  | .refused _ => State.reset

def isNext (o : Host.Outcome State Fault Refusal) : Bool :=
  match o with
  | .next _ => true
  | .fault _ => false
  | .refused _ => false

theorem exists_of_isNext {o : Host.Outcome State Fault Refusal} (h : isNext o = true) : ∃ t, o = .next t := by
  cases o with
  | next t => exact ⟨t, rfl⟩
  | fault f => simp [isNext] at h
  | refused r => simp [isNext] at h

/-- Bytes from an address up. -/
def place (m : Memory) (a : Nat) : List Byte → Memory
  | [] => m
  | b :: rest => place (memStore m a b) (a + 1) rest

def keyA : List Byte := (List.range 32).map (BitVec.ofNat 8)
def nonceA : List Byte := [0, 0, 0, 9, 0, 0, 0, 0x4a, 0, 0, 0, 0]

/-- A descriptor as P3 of 95_test_vectors.md, for `len` bytes from counter 1. -/
def desc (len : Nat) : Descriptor :=
  { outAddr := 0x2000, outLen := len, inAddr := 0x1000, inLen := len, nonceAddr := 0x200, nonceLen := 12, keyAddr := 0x100,
    keyLen := 32, counter := 1, rounds := 8 }

/-- Reset, with a written descriptor. -/
def idleFor (len : Nat) : State := { State.reset with desc := desc len, written := Vector.replicate 10 true }

/-- Fixture A: its key and nonce words in the latches, counter 1. -/
def fixtureA : State :=
  { idleFor 64 with
    k := #v[0x03020100, 0x07060504, 0x0b0a0908, 0x0f0e0d0c, 0x13121110, 0x17161514, 0x1b1a1918, 0x1f1e1d1c]
    n := #v[0x09000000, 0x4a000000, 0]
    ctr := 1 }

/-- X as V4 of 95_test_vectors.md. -/
def stateV4 : Vector Word 16 :=
  #v[0x61707865, 0x3320646e, 0x79622d32, 0x6b206574, 0x03020100, 0x07060504, 0x0b0a0908, 0x0f0e0d0c,
     0x13121110, 0x17161514, 0x1b1a1918, 0x1f1e1d1c, 0x00000001, 0x09000000, 0x4a000000, 0x00000000]

/-- X as R91's example leaves it. -/
def stateR91 : Vector Word 16 :=
  #v[0xabbaa25c, 0x1efa51ea, 0x7354fbdf, 0x83d2dc69, 0x3a465196, 0x1c7e64f6, 0xb12fb628, 0xf05b6976,
     0x6b3ca454, 0x08eb14b1, 0xbf8a9ac9, 0xe444df3b, 0xdec62ed2, 0x8862cc77, 0x6e35b345, 0x52a647f1]

/-- X as R92's example leaves it. -/
def stateR92 : Vector Word 16 :=
  #v[0xcd52e917, 0x85ab03b4, 0xb3457395, 0xf96de7dd, 0xc4b7cd22, 0x5c2e187a, 0xc95eb461, 0x316c801a,
     0x7bf7d740, 0x7eddd644, 0xf1a1bdf5, 0x761246ca, 0x6b0d58a3, 0x6798471a, 0xd737f167, 0xf173888d]

/-! ### One step of each instruction, against the spec's numbers -/

/-- V19, third row. -/
theorem test_valid_reports_the_key_length :
    (after (exec .valid { idleFor 3 with desc := { desc 3 with keyLen := 31, rounds := 7 } })).result
    = .err .invalidKeyLength := by decide
/-- V21. -/
theorem test_ovfchk_traps_at_the_boundary :
    (after (exec .ovfchk { idleFor 128 with desc := { desc 128 with counter := 0xFFFFFFFE } })).statusByte = 0x56 := by decide
/-- V25. -/
theorem test_ovfchk_passes_at_the_boundary :
    (after (exec .ovfchk { idleFor 128 with desc := { desc 128 with counter := 0xFFFFFFFD } })).nblk = 2 := by decide
/-- V4. -/
theorem test_ldkn_latches_fixture_a :
    (let t := after (exec .ldkn { idleFor 64 with mem := place (place [] 0x100 keyA) 0x200 nonceA })
     (t.k, t.n)) = (fixtureA.k, fixtureA.n) := by decide
/-- V4. -/
theorem test_init_lays_out_the_state : (after (exec .init fixtureA)).x = stateV4 := by decide
/-- V3. -/
theorem test_qr_on_registers :
    (after (exec (.qr 2 7 8 13) { State.reset with
      x := #v[0x879531e0, 0xc5ecf37d, 0x516461b1, 0xc9a62f8a, 0x44c20ef3, 0x3390af7f, 0xd9fc690b, 0x2a5f714c,
              0x53372767, 0xb00a5631, 0x974c541a, 0x359e9963, 0x5c971061, 0x3d631689, 0x2098d9d6, 0x91dbd320] })).x
    = #v[0x879531e0, 0xc5ecf37d, 0xbdb886dc, 0xc9a62f8a, 0x44c20ef3, 0x3390af7f, 0xd9fc690b, 0xcfacafd2,
         0xe46bea80, 0xb00a5631, 0x974c541a, 0x359e9963, 0x5c971061, 0xccc07c79, 0x2098d9d6, 0x91dbd320] := by decide
/-- V1. -/
theorem test_quarter_round_values :
    quarterRoundValues 0x11111111 0x01020304 0x9b8d6f43 0x01234567
    = (0xea2a92f4, 0xcb1cf8ce, 0x4581472e, 0x5881c4bb) := by decide
/-- R91. -/
theorem test_colr : (after (exec .colr { State.reset with x := stateV4 })).x = stateR91 := by decide
/-- R92. -/
theorem test_diagr : (after (exec .diagr { State.reset with x := stateR91 })).x = stateR92 := by decide
/-- R93. -/
theorem test_dround : (after (exec .dround { State.reset with x := stateV4 })).x = stateR92 := by decide
/-- V5b. -/
theorem test_ffadd_drops_the_carry :
    (after (exec .ffadd { State.reset with x := Vector.replicate 16 0xffffffff, saved := Vector.replicate 16 0xffffffff })).x
    = Vector.replicate 16 0xfffffffe := by decide
/-- V5c. -/
theorem test_ser_is_little_endian :
    (let t := after (exec .ser { State.reset with x := Vector.replicate 16 0x12345678 })
     (t.ks[60], t.ks[61], t.ks[62], t.ks[63])) = (0x78, 0x56, 0x34, 0x12) := by decide
/-- V17. -/
theorem test_xorb_writes_six_bytes :
    (let s := { idleFor 70 with
       blk := 1, ks := (((((Vector.replicate 64 0).set 0 0x7a).set 1 0xe5).set 2 0x91).set 3 0x4f).set 4 0xff |>.set 5 0xe8,
       mem := place (place [] 0x1040 [0xc1, 0xc8, 0xcf, 0xd6, 0xdd, 0xe4]) 0x2046 [0xaa] }
     (List.range 7).map fun j => memByte (after (exec (.xorb 6) s)).mem (0x2040 + j))
    = [0xbb, 0x2d, 0x5e, 0x99, 0x22, 0x0c, 0xaa] := by decide
/-- V18. -/
theorem test_wipe_keeps_the_counter :
    (let t := after (exec .wipe { fixtureA with ctr := 3, nblk := 2, blk := 2 })
     (t.k, t.ctr, t.nblk, t.blk)) = (Vector.replicate 8 0, 3, 2, 2) := by decide
/-- V29b. -/
theorem test_ctrinc : (after (exec .ctrinc { State.reset with ctr := 0xfffffffe })).ctr = 0xffffffff := by decide
/-- R114's example. -/
theorem test_ret : (after (exec .ret { State.reset with ctr := 3, ph := .ret })).ctrOut? = some 3 := by decide
/-- V27, second row, and P6. -/
theorem test_xform_of_zero_bytes :
    (after (exec .xform { idleFor 0 with desc := { desc 0 with counter := 0x12345678 } })).result = .ok 0x12345678 := by decide
/-- V27, third row. -/
theorem test_xform_of_zero_bytes_still_validates :
    (after (exec .xform { idleFor 0 with desc := { desc 0 with keyLen := 31 } })).result = .err .invalidKeyLength := by decide

/-! ### The invariant, checked on a concrete state -/

/-- The clauses of `EngineInv` as one computation. -/
def invCheck (s : State) : Bool :=
  let zero := s.x = Vector.replicate 16 0 ∧ s.saved = Vector.replicate 16 0 ∧ s.ks = Vector.replicate 64 0
    ∧ s.k = Vector.replicate 8 0 ∧ s.n = Vector.replicate 3 0
  decide (s.listing = []) && decide (Memory.wf s.mem) && decide (holdsKey s.ph = false → zero) &&
  decide (s.ph ≠ .idle → s.result = .none) && decide (s.ph ≠ .idle → allDescRegs.all s.isWritten = true) &&
  decide (s.ph ≠ .idle → s.ph ≠ .valid → entryError s.desc = none) &&
  decide (s.ph = .valid ∨ s.ph = .ovf → s.blk = 0 ∧ s.nblk = 0) &&
  decide (inBlockLoop s.ph = true ∨ s.ph = .wipe ∨ s.ph = .ret →
    s.nblk.toNat = (s.desc.inLen + 63) / 64 ∧ s.desc.counter.toNat + s.nblk.toNat ≤ 2 ^ 32 - 1) &&
  decide (s.ph ≠ .idle → s.ctr.toNat = s.desc.counter.toNat + s.blk.toNat) &&
  decide (inBlockLoop s.ph = true → s.blk.toNat < s.nblk.toNat) &&
  decide (s.ph = .wipe ∨ s.ph = .ret → s.blk = s.nblk) &&
  decide (s.ph ≠ .idle → rangeRefusal s = none) &&
  decide (s.ph = .qr → s.dr.toNat < s.desc.rounds.toNat / 2) && decide (s.dr.toNat ≤ 9) &&
  decide (s.ph ≠ .qr → s.dr = 0 ∧ s.qi = 0) &&
  decide (s.ph = .qr ∨ s.ph = .ffadd → s.saved = initialWords s.k s.n s.ctr) &&
  decide (s.ph = .qr → s.dr = 0 → s.qi = 0 → s.x = s.saved) &&
  allDescRegs.all fun r => decide (s.desc.get r < 2 ^ r.width s.params)

theorem mem_allDescRegs (r : DescReg) : r ∈ allDescRegs := by cases r <;> decide

theorem inv_of_check {s : State} (h : invCheck s = true) : EngineInv s := by
  simp only [invCheck, Bool.and_eq_true, decide_eq_true_eq, List.all_eq_true] at h
  obtain ⟨⟨⟨⟨⟨⟨⟨⟨⟨⟨⟨⟨⟨⟨⟨⟨⟨h1, h2⟩, h3⟩, h4⟩, h5⟩, h6⟩, h7⟩, h8⟩, h9⟩, h10⟩, h11⟩, h12⟩, h13⟩, h14⟩, h15⟩, h16⟩, h17⟩, h18⟩ := h
  exact {
    noListing := h1
    memWf := h2
    zero := fun hp => ⟨(h3 hp).1, (h3 hp).2.1, (h3 hp).2.2.1, (h3 hp).2.2.2.1, (h3 hp).2.2.2.2⟩
    noResult := h4
    written := fun hp r => h5 hp r (mem_allDescRegs r)
    checked := h6
    uncounted := h7
    counted := h8
    counter := h9
    blockLeft := h10
    blocksDone := h11
    ranges := fun hb => rangeRefusal_eq_none.1 (h12 hb)
    roundIndex := h13
    roundBound := h14
    roundRest := h15
    original := h16
    fresh := h17
    widths := fun r => h18 r (mem_allDescRegs r) }

/-- A command of `len` bytes at phase `p`, block `blk`, with zero key and nonce. -/
def busyAt (p : Phase) (len blk : Nat) : State :=
  let ctr := 1 + BitVec.ofNat 32 blk
  { idleFor len with
    ph := p
    blk := BitVec.ofNat 32 blk
    nblk := if p = .valid ∨ p = .ovf then 0 else BitVec.ofNat 32 (blockCount len)
    ctr := ctr
    saved := if p = .qr ∨ p = .ffadd then initialWords (Vector.replicate 8 0) (Vector.replicate 3 0) ctr
      else Vector.replicate 16 0
    x := if p = .qr ∨ p = .ffadd then initialWords (Vector.replicate 8 0) (Vector.replicate 3 0) ctr
      else Vector.replicate 16 0 }

/-- Every phase has a state that meets the invariant and takes a step: the clauses of SequencerFollowsItsTable,
StepKeepsTheEngineInvariant, BusyEngineAlwaysSteps, CommandWritesOnlyItsOutput. -/
theorem witness_every_phase :
    ∀ s ∈ [idleFor 6, busyAt .valid 6 0, busyAt .ovf 6 0, busyAt .load 6 0, busyAt .init 6 0, busyAt .qr 6 0, busyAt .ffadd 6 0,
      busyAt .ser 6 0, busyAt .xor 6 0, busyAt .inc 6 0, busyAt .wipe 6 1, busyAt .ret 6 1],
      invCheck s = true ∧ isNext (engineStep s) = true ∧ isNext (step s) = true ∧ rangeRefusal s = none ∧ s.host = [] := by
  decide

/-- The boundary rows of the table: the last quarter-round of a double-round and of the rounds, the last and an earlier block,
a trap, a command without blocks. -/
theorem witness_table_boundaries :
    ∀ s ∈ [{ busyAt .qr 6 0 with qi := 7 }, { busyAt .qr 6 0 with qi := 7, dr := 3 }, { busyAt .qr 6 0 with qi := 6 },
      busyAt .inc 70 0, busyAt .inc 70 1, busyAt .ovf 0 0, busyAt .load 64 0],
      invCheck s = true ∧ isNext (engineStep s) = true := by decide

theorem witness_trap :
    let s := { busyAt .valid 6 0 with desc := { desc 6 with rounds := 7 } }
    invCheck s = true ∧ s.ph ≠ .idle ∧ (after (engineStep s)).result = .err .invalidRoundCount := by decide
theorem witness_trap_of_ovfchk :
    let s := { busyAt .ovf 6 0 with desc := { desc 6 with counter := 0xFFFFFFFF }, ctr := 0xFFFFFFFF }
    invCheck s = true ∧ (after (engineStep s)).result = .err .counterOverflow := by decide

/-- OverlayByteCount: a full block before the last, a partial last one, a full last one. -/
theorem witness_overlay_byte_count :
    invCheck (busyAt .xor 70 0) = true ∧ invCheck (busyAt .xor 70 1) = true ∧ invCheck (busyAt .xor 128 1) = true ∧
    issue (busyAt .xor 70 0) = some (.xorb 64) ∧ issue (busyAt .xor 70 1) = some (.xorb 6) ∧
    issue (busyAt .xor 128 1) = some (.xorb 64) := by decide

/-- CtrincAdvancesWithoutWrap and RetReportsTheCounter, at the greatest counter a block and a result can have (V22). -/
theorem witness_last_counter :
    let d := { desc 6 with counter := 0xFFFFFFFE }
    invCheck { busyAt .inc 6 0 with desc := d, ctr := 0xFFFFFFFE } = true ∧
    invCheck { busyAt .ret 6 1 with desc := d, ctr := 0xFFFFFFFF } = true := by decide

/-! ### States that meet the hypotheses of the other statements -/

theorem witness_encodings : (0 < 7 ∧ 7 < 32) ∧ (Instr.qr 0 4 8 12).wf = true ∧ (Instr.xorb 64).wf = true ∧
    decode 0x2000048C = .ok (.qr 0 4 8 12) := by decide

theorem witness_listing :
    ([0x10000000, 0x2000048C] : List Word).all isLegalWord = true ∧ decode 0x10000000 = .ok .init := by decide
theorem witness_placed_word :
    decodeTableWord 32 0x10000000 = some .init ∧
    (State.reset.withFetchWord 32 0x10000000).listing = [0x10000000] := by decide
theorem witness_placed_word_runs : isNext (step (State.reset.withFetchWord 32 0x10000000)) = true := by decide
theorem witness_illegal_listing :
    let s := { State.reset with listing := [0x10000000, 0x2000048D] }
    (0x2000048D ∈ s.listing ∧ isLegalWord 0x2000048D = false) ∧
    (match step s with | .refused r => r | .next _ => .illegalOperands | .fault _ => .illegalOperands)
      = .illegalWord 0x2000048D := by decide

theorem witness_sequencer_step :
    EngineAlone (busyAt .load 6 0) ∧ issue (busyAt .load 6 0) = some .ldkn ∧
    LegalRanges (busyAt .load 6 0).params (busyAt .load 6 0).desc :=
  ⟨⟨rfl, rfl⟩, rfl, rangeRefusal_eq_none.1 (by decide)⟩

/-- ValidChecksInOrder and XformReportsTheFirstFailingCheck: V19, one descriptor for each clause. -/
theorem witness_entry_checks :
    ({ desc 3 with outLen := 4 }.outLen ≠ 3) ∧ ((desc 3).outLen = (desc 3).inLen ∧ 11 ≠ 12 ∧ 31 ≠ 32) ∧
    ¬((7 : Word) = 8 ∨ (7 : Word) = 12 ∨ (7 : Word) = 20) ∧
    2 ^ 32 - 1 < { desc 3 with counter := 0xFFFFFFFF }.counter.toNat + (3 + 63) / 64 := by decide

/-- XformReportsTheFirstFailingCheck: the rows of V19 have legal ranges. -/
theorem witness_entry_checks_ranges :
    ∀ d ∈ [{ desc 3 with outLen := 4, nonceLen := 11, keyLen := 31, rounds := 7 }, { desc 3 with nonceLen := 11, rounds := 7 },
      { desc 3 with keyLen := 31, rounds := 7 }, { desc 3 with rounds := 7 }, { desc 3 with counter := 0xFFFFFFFF }],
      rangeRefusal { State.reset with desc := d } = none ∧ isNext (exec .xform { State.reset with desc := d }) = true := by decide

/-- OvfchkCountsBlocksOrTraps: V25, V21 and V24. -/
theorem witness_ovfchk :
    (0xFFFFFFFD : Word).toNat + (128 + 63) / 64 ≤ 2 ^ 32 - 1 ∧ 2 ^ 32 - 1 < (0xFFFFFFFE : Word).toNat + (128 + 63) / 64 ∧
    (desc 0).inLen = 0 := by decide

/-- LdknLatchesLittleEndianWords, at reset. -/
theorem witness_ldkn :
    (∀ j < 32, accessFault State.reset .read (State.reset.desc.keyAddr + j) = none) ∧
    (∀ j < 12, accessFault State.reset .read (State.reset.desc.nonceAddr + j) = none) := by decide

/-- A platform that rejects one byte of the key, of the nonce, of the input and of the output. -/
def rejecting (a : Nat) (kind : Access) : State := { idleFor 6 with rejects := [{ base := a, size := 1, kind := kind }] }

theorem witness_rejected_key :
    (∀ i < 5, accessFault (rejecting 0x105 .read) .read (0x100 + i) = none) ∧
    accessFault (rejecting 0x105 .read) .read 0x105 = some (.memoryRejects .read 0x105) := by decide
theorem witness_rejected_nonce :
    (∀ i < 32, accessFault (rejecting 0x20b .read) .read (0x100 + i) = none) ∧
    (∀ i < 11, accessFault (rejecting 0x20b .read) .read (0x200 + i) = none) ∧
    accessFault (rejecting 0x20b .read) .read 0x20b = some (.memoryRejects .read 0x20b) := by decide
theorem witness_rejected_output :
    let s := rejecting 0x2005 .write
    overlayRefusal s 6 = none ∧
    (∀ i < 5, accessFault s .read (inByteAddr s i) = none ∧ accessFault s .write (outByteAddr s i) = none) ∧
    accessFault s .read (inByteAddr s 5) = none ∧
    accessFault s .write (outByteAddr s 5) = some (.memoryRejects .write 0x2005) := by decide

theorem witness_illegal_operands :
    (Instr.qr 0 0 0 0).wf = false ∧ ((0 : Byte).toNat = 0 ∧ 64 < (65 : Byte).toNat) ∧
    ¬(State.reset.desc.rounds = 8 ∨ State.reset.desc.rounds = 12 ∨ State.reset.desc.rounds = 20) := by decide

theorem witness_lanes :
    Instr.qr 0 4 8 12 ∈ [Instr.qr 0 4 8 12, .qr 1 5 9 13, .qr 2 6 10 14, .qr 3 7 11 15] ∧
    Instr.qr 3 4 9 14 ∈ [Instr.qr 0 5 10 15, .qr 1 6 11 12, .qr 2 7 8 13, .qr 3 4 9 14] := by decide

/-- BlockIsItsExpansion, IllegalOperandsHaveNoMeaning and KeystreamBlockIsAPureFunction: two states that differ in memory and in X. -/
theorem witness_block :
    let s := fixtureA
    let s' := { fixtureA with x := stateV4, mem := [(5, 1)] }
    s.desc.rounds = 8 ∧ s.x = s.saved ∧ s'.x ≠ s'.saved ∧ s.k = s'.k ∧ s.n = s'.n ∧ s.ctr = s'.ctr ∧ s.desc.rounds = s'.desc.rounds := by decide

/-- XorbCombinesOneBlock: apart, and in place. -/
theorem witness_xorb :
    (∀ s ∈ [idleFor 6, { idleFor 6 with desc := { desc 6 with outAddr := 0x1000 } }],
      Memory.wf s.mem ∧ overlapsPartially s.desc.inAddr s.desc.outAddr s.desc.inLen = false ∧
      (∀ j < 6, accessFault s .read (s.desc.inAddr + 64 * s.blk.toNat + j) = none) ∧
      (∀ j < 6, accessFault s .write (s.desc.outAddr + 64 * s.blk.toNat + j) = none) ∧
      isNext (exec (.xorb 6) s) = true) ∧
    (0x1000 + (desc 6).inLen ≤ 0x2000 ∧ 0x1000 + (6 : Byte).toNat ≤ 0x2000) := by decide
/-- XorbRefusesPartialOverlap: by the command's ranges, and by the word's own bytes. -/
theorem witness_xorb_overlap :
    (0 < 128 ∧ 0x1000 ≠ 0x1040 ∧ 0x1000 < 0x1040 + 128 ∧ 0x1040 < 0x1000 + 128) ∧
    (0x1000 ≠ 0x1001 ∧ 0x1000 < 0x1001 + 6 ∧ 0x1001 < 0x1000 + 6) := by decide

/-- A command is accepted, its ranges legal and its memory accepts it: XformWritesInputXorKeystream, CommandIsResumable (cut
0 and 64), CommandIsAnInvolution, BusyEngineAlwaysSteps. -/
theorem witness_command :
    Accepted (idleFor 70).desc ∧ LegalRanges (idleFor 70).params (idleFor 70).desc ∧ MemoryAccepts (idleFor 70) ∧
    Memory.wf (idleFor 70).mem ∧ 64 % 64 = 0 ∧ 64 ≤ (idleFor 70).desc.inLen :=
  ⟨⟨rfl, rfl, rfl, .inl rfl, by decide⟩, rangeRefusal_eq_none.1 (by decide), ⟨by decide, by decide, by decide, by decide⟩,
    by decide, by decide, by decide⟩
/-- CommandIsAnInvolution, the way back: in place and to a third place. -/
theorem witness_way_back :
    ∀ at' ∈ [0x2000, 0x1000, 0x3000],
      let back := { idleFor 70 with desc := { desc 70 with inAddr := 0x2000, outAddr := at' } }
      rangeRefusal back = none ∧ (∀ j < 70, accessFault back .read (0x2000 + j) = none) ∧
      (∀ j < 70, accessFault back .write (at' + j) = none) := by decide

theorem witness_zero_length :
    Accepted (idleFor 0).desc ∧ (idleFor 0).desc.inLen = 0 ∧ { desc 0 with keyLen := 31 }.keyLen ≠ 32 ∧
    ¬Accepted { desc 0 with keyLen := 31 } ∧ invCheck (busyAt .wipe 0 0) = true ∧ (busyAt .wipe 0 0).desc.inLen = 0 ∧
    rangeRefusal (idleFor 0) = none ∧ rangeRefusal { idleFor 0 with desc := { desc 0 with keyLen := 31 } } = none :=
  ⟨⟨rfl, rfl, rfl, .inl rfl, by decide⟩, rfl, by decide, fun h => absurd h.key (by decide), by decide, rfl, by decide,
    by decide⟩

/-- CounterAdvancesOncePerBlock, OutputDependsOnDescriptorAndBuffersOnly, WordsLeaveWhatTheyDoNotName,
StepKeepsMemoryCanonical: commands that run, of 0 and of 3 bytes. -/
theorem witness_command_runs :
    (after (exec .xform (idleFor 0))).result = .ok 1 ∧ isNext (exec .xform (idleFor 0)) = true ∧
    (after (exec .xform (idleFor 3))).result = .ok 2 ∧ isNext (exec .xform (idleFor 3)) = true := by decide

/-- IllegalRangesAreRefused: a command that would trap, and one at START. -/
theorem witness_illegal_ranges :
    let d := { desc 6 with outAddr := 0x1001, rounds := 7 }
    let s := { busyAt .valid 6 0 with desc := d }
    ¬LegalRanges s.params s.desc ∧ EngineAlone s ∧ s.ph ≠ .idle ∧
    (match step { idleFor 6 with desc := d, host := [.write .ctrl 1] } with
      | .refused r => r | .next _ => .illegalOperands | .fault _ => .illegalOperands) = .inputOutputOverlap :=
  ⟨fun h => absurd (rangeRefusal_eq_none.2 h) (by decide), ⟨rfl, rfl⟩, by decide, by decide⟩

/-- SequencerAgreesWithXform and CommandIsBusyUntilItsLastStep. -/
theorem witness_alone : EngineAlone (idleFor 6) ∧ 2 < commandSteps (idleFor 6).desc ∧
    isNext (Host.Core.run core 2 (beginCommand (idleFor 6))) = true := ⟨⟨rfl, rfl⟩, by decide, by decide⟩

/-- ControlFlowIsDataIndependent: two states that differ in the key, the counter and the data. -/
theorem witness_control_flow :
    let s := busyAt .init 6 0
    let s' := { busyAt .init 6 0 with k := fixtureA.k, ctr := 9, mem := [(0x1000, 1)] }
    s.ph = s'.ph ∧ s.ph ≠ .valid ∧ s.ph ≠ .ovf ∧ isNext (engineStep s) = true ∧ isNext (engineStep s') = true := by decide

/-! ### The host -/

/-- R21: bit 0 alone decides. -/
theorem witness_start :
    let s := { idleFor 6 with host := [.write .ctrl 3] }
    (∀ r ∈ allDescRegs, s.isWritten r = true) ∧ rangeRefusal s = none ∧ (after (step s)).ph = .valid ∧
    (after (step { idleFor 6 with host := [.write .ctrl 2] })).ph = .idle := by decide
theorem witness_refused_moves :
    (match step { State.reset with host := [.write .ctrl 1] } with
      | .refused r => r | .next _ => .illegalOperands | .fault _ => .illegalOperands) = .startUnwritten .outAddr ∧
    (busyAt .qr 6 0).ph ≠ .idle := by decide
theorem witness_read_back :
    let s := { State.reset with host := [.write (.desc .keyLen) 32, .read (.desc .keyLen)] }
    32 < 2 ^ DescReg.keyLen.width s.params ∧ (after (Host.Core.run core 2 s)).readData = 32 := by decide
theorem witness_wide_write :
    let s := { State.reset with host := [.write (.desc .rounds) (2 ^ 32)] }
    2 ^ DescReg.rounds.width s.params ≤ 2 ^ 32 ∧ (after (step s)).fresh = 1 ∧ (after (step s)).isWritten .rounds = true := by
  decide
theorem witness_host_reads :
    (after (step { State.reset with host := [.read .status], result := .err .counterOverflow })).readData = 0x56 ∧
    (after (step { State.reset with host := [.read .ctrOut], result := .ok 7 })).readData = 7 ∧
    (after (step { State.reset with host := [.read .ctrOut] })).fresh = 1 := by decide
theorem witness_hand_over :
    accessFault State.reset .write 0x2000 = none ∧ accessFault State.reset .read 0x2000 = none ∧
    memByte (after (step { State.reset with host := [.memWrite 0x2000 0xaa] })).mem 0x2000 = 0xaa ∧
    ((busyAt .qr 6 0).desc.outAddr ≤ 0x2005 ∧ 0x2005 < (busyAt .qr 6 0).desc.outAddr + (busyAt .qr 6 0).desc.outLen) ∧
    ((busyAt .qr 6 0).desc.inAddr ≤ 0x1000 ∧ 0x1000 < (busyAt .qr 6 0).desc.inAddr + (busyAt .qr 6 0).desc.inLen) ∧
    ((busyAt .qr 6 0).desc.nonceAddr ≤ 0x20b ∧ 0x20b < (busyAt .qr 6 0).desc.nonceAddr + (busyAt .qr 6 0).desc.nonceLen) ∧
    ((busyAt .qr 6 0).desc.keyAddr ≤ 0x11f ∧ 0x11f < (busyAt .qr 6 0).desc.keyAddr + (busyAt .qr 6 0).desc.keyLen) := by
  decide
theorem witness_reset_while_busy :
    let s := { busyAt .xor 6 0 with host := [.reset 2], mem := place [] 0x1000 [1, 2, 3], ks := Vector.replicate 64 0x10 }
    invCheck s = true ∧
    (List.range 4).map (memByte (after (step s)).mem ∘ (0x2000 + ·)) = [0x11, 0x12, 0, 0] ∧
    (after (step s)).ph = .idle := by decide
theorem witness_reset_accepts : MemoryAccepts (busyAt .xor 6 0) :=
  ⟨by decide, by decide, by decide, by decide⟩
/-- A call of `encrypt` or `decrypt` for `len` bytes. -/
def buffers (outLen len : Nat) : CallBuffers :=
  { output := { addr := 0x2000, len := outLen }, input := { addr := 0x1000, len := len }, nonce := { addr := 0x200, len := 12 },
    key := { addr := 0x100, len := 32 } }

theorem witness_call :
    let d := callDescriptor .chaCha20 (buffers 6 6) 0
    (∀ r ∈ allDescRegs, d.get r < 2 ^ r.width State.reset.params) ∧ rangeRefusal { State.reset with desc := d } = none ∧
    (after (step { State.reset with host := decryptMoves .chaCha8 (buffers 5 6) })).returned = .failed .lengthMismatch := by
  decide
theorem test_call_returns :
    (after (step { State.reset with host := [.returnCounter], result := .ok 7 })).returned = .counter 7 ∧
    (after (step { State.reset with host := [.returnVoid], result := .ok 7 })).returned = .void ∧
    (after (step { State.reset with host := [.returnCounter], result := .err .counterOverflow })).returned
      = .failed .counterOverflow := by decide

end Sys2Proof.Tests
end

/-! ### Words as naturals: the rotation and the little-endian conversion -/
section
namespace Sys2Proof.Machine

/-- Bits shifted above a number that fits below them are added to it. -/
theorem or_shiftLeft_eq_add {i lo : Nat} (h : lo < 2 ^ i) (hi : Nat) : lo ||| hi <<< i = lo + 2 ^ i * hi := by
  rw [Nat.or_comm, ← Nat.shiftLeft_add_eq_or_of_lt h, Nat.shiftLeft_eq, Nat.mul_comm, Nat.add_comm]

/-- R6: the bits moved up and the bits wrapped around do not meet, so the rotation's OR is a sum. -/
theorem rotl_toNat (a : Word) {n : Nat} (h : n < 32) :
    (rotl a n).toNat = (a.toNat * 2 ^ n) % 2 ^ 32 + a.toNat / 2 ^ (32 - n) := by
  have split : 2 ^ 32 = 2 ^ (32 - n) * 2 ^ n := by rw [← Nat.pow_add, Nat.sub_add_cancel h.le]
  have moved : (a.toNat * 2 ^ n) % 2 ^ 32 = (a.toNat % 2 ^ (32 - n)) <<< n := by
    rw [split, Nat.mul_mod_mul_right, Nat.shiftLeft_eq]
  have wrapped : a.toNat / 2 ^ (32 - n) < 2 ^ n := Nat.div_lt_of_lt_mul (split ▸ a.isLt)
  rw [rotl, BitVec.toNat_rotateLeft, Nat.mod_eq_of_lt h, Nat.shiftLeft_eq, Nat.shiftRight_eq_div_pow, moved,
    Nat.shiftLeft_add_eq_or_of_lt wrapped]

/-- A byte placed at bit `i` of a word loses nothing. -/
theorem toNat_setWidth_shiftLeft (b : Byte) {i : Nat} (h : i ≤ 24) :
    (b.setWidth 32 <<< i).toNat = b.toNat <<< i := by
  have fits : b.toNat <<< i < 2 ^ 32 := calc
    b.toNat <<< i = b.toNat * 2 ^ i := Nat.shiftLeft_eq ..
    _ < 2 ^ 8 * 2 ^ i := Nat.mul_lt_mul_of_pos_right b.isLt (Nat.two_pow_pos i)
    _ ≤ 2 ^ 8 * 2 ^ 24 := Nat.mul_le_mul_left _ (Nat.pow_le_pow_right (by decide) h)
  rw [BitVec.toNat_shiftLeft, BitVec.toNat_setWidth_of_le (by decide), Nat.mod_eq_of_lt fits]

/-- R7: `le32` is the little-endian sum of its bytes. -/
theorem le32_toNat (b0 b1 b2 b3 : Byte) :
    (le32 b0 b1 b2 b3).toNat = b0.toNat + 2 ^ 8 * b1.toNat + 2 ^ 16 * b2.toNat + 2 ^ 24 * b3.toNat := by
  have := b0.isLt; have := b1.isLt; have := b2.isLt
  rw [le32, BitVec.toNat_or, BitVec.toNat_or, BitVec.toNat_or, BitVec.toNat_setWidth_of_le (by decide),
    toNat_setWidth_shiftLeft b1 (by decide), toNat_setWidth_shiftLeft b2 (by decide),
    toNat_setWidth_shiftLeft b3 (by decide), or_shiftLeft_eq_add (i := 8) (by omega),
    or_shiftLeft_eq_add (i := 16) (by omega), or_shiftLeft_eq_add (i := 24) (by omega)]

/-- R7: `byte_k` is a quotient modulo 256; above the word (`3 < k`) both sides are zero. -/
theorem byteOf_toNat (k : Nat) (w : Word) : (byteOf k w).toNat = w.toNat / 2 ^ (8 * k) % 256 := by
  rw [byteOf, BitVec.extractLsb'_toNat, Nat.shiftRight_eq_div_pow]

/-- A word put together again from its four bytes (R7). -/
@[simp] theorem le32_byteOf (w : Word) : le32 (byteOf 0 w) (byteOf 1 w) (byteOf 2 w) (byteOf 3 w) = w := by
  apply BitVec.eq_of_toNat_eq
  have := w.isLt
  simp only [le32_toNat, byteOf_toNat]
  omega

section
variable (b0 b1 b2 b3 : Byte)

/-- The bytes of a word put together from four bytes, as naturals (R7). -/
theorem byteOf_le32_toNat (k : Nat) : (byteOf k (le32 b0 b1 b2 b3)).toNat =
    (b0.toNat + 2 ^ 8 * b1.toNat + 2 ^ 16 * b2.toNat + 2 ^ 24 * b3.toNat) / 2 ^ (8 * k) % 256 := by
  rw [byteOf_toNat, le32_toNat]

@[simp] theorem byteOf_zero_le32 : byteOf 0 (le32 b0 b1 b2 b3) = b0 := by
  have := byteOf_le32_toNat b0 b1 b2 b3 0
  bv_omega

@[simp] theorem byteOf_one_le32 : byteOf 1 (le32 b0 b1 b2 b3) = b1 := by
  have := byteOf_le32_toNat b0 b1 b2 b3 1
  bv_omega

@[simp] theorem byteOf_two_le32 : byteOf 2 (le32 b0 b1 b2 b3) = b2 := by
  have := byteOf_le32_toNat b0 b1 b2 b3 2
  bv_omega

@[simp] theorem byteOf_three_le32 : byteOf 3 (le32 b0 b1 b2 b3) = b3 := by
  have := byteOf_le32_toNat b0 b1 b2 b3 3
  bv_omega

end

/-- Settles O1: the formula holds at the distance 0 as well, so only `n < 32` is used. -/
theorem rotationIsTheSpecsFormula : Obligations.RotationIsTheSpecsFormula :=
  fun a _ _ h => rotl_toNat a h

/-- Settles O2, from the formulas of `le32` and `byte_k` on naturals and the two inverse laws. -/
theorem littleEndianConversion : Obligations.LittleEndianConversion :=
  ⟨le32_toNat, fun w k _ => byteOf_toNat k w, le32_byteOf, fun b0 b1 b2 b3 =>
    ⟨byteOf_zero_le32 b0 b1 b2 b3, byteOf_one_le32 b0 b1 b2 b3, byteOf_two_le32 b0 b1 b2 b3,
      byteOf_three_le32 b0 b1 b2 b3⟩⟩

end Sys2Proof.Machine
end

/-! ### STATUS, the descriptor registers and the host's reads and writes -/
section
namespace Sys2Proof.Machine

open Sys2Proof.Safety

/-- A bit string above another counts with the weight of its place. -/
theorem toNat_append_eq_add {w v : Nat} (a : BitVec w) (b : BitVec v) : (a ++ b).toNat = b.toNat + 2 ^ v * a.toNat := by
  rw [BitVec.toNat_append, Nat.or_comm, or_shiftLeft_eq_add b.isLt]

/-- R22: STATUS as the sum of its fields. -/
theorem statusByte_toNat (s : State) :
    s.statusByte.toNat = s.busy.toNat + 2 * s.done.toNat + 4 * s.errBit.toNat + 16 * s.ecode.toNat := by
  simp only [State.statusByte, toNat_append_eq_add, BitVec.toNat_ofBool, BitVec.toNat_ofNat]
  omega

@[simp] theorem busy_eq_true {s : State} : s.busy = true ↔ s.ph ≠ .idle := by simp [State.busy]
@[simp] theorem busy_eq_false {s : State} : s.busy = false ↔ s.ph = .idle := by simp [State.busy]

/-- Settles O52: STATUS is the sum of its fields, and each field is a table of RESULT; a busy engine has no result. -/
theorem statusIsAViewOfPhaseAndResult : Obligations.StatusIsAViewOfPhaseAndResult := by
  refine ⟨fun s => ?_, fun s h => ?_⟩
  · have busy : s.busy.toNat = if s.ph = .idle then 0 else 1 := by
      by_cases hp : s.ph = .idle <;> simp [State.busy, hp]
    rw [statusByte_toNat, busy]
    cases hr : s.result with
    | none => simp [State.done, State.errBit, State.ecode, hr]
    | ok c => simp [State.done, State.errBit, State.ecode, hr]
    | err e => cases e <;> simp [State.done, State.errBit, State.ecode, Exc.code, hr]
  · rintro ⟨hb, hd⟩
    have hr := h.noResult (busy_eq_true.1 hb)
    simp [State.done, hr] at hd

/-- A descriptor register reads back a value that fits it (R19). -/
theorem get_set_same {p : Config.Params} {r : DescReg} {v : Nat} (d : Descriptor) (h : v < 2 ^ r.width p) :
    (d.set r v).get r = v := by
  cases r with
  | counter => exact BitVec.toNat_ofNat .. |>.trans (Nat.mod_eq_of_lt h)
  | rounds => exact BitVec.toNat_ofNat .. |>.trans (Nat.mod_eq_of_lt h)
  | _ => rfl

/-- A write of one descriptor register leaves the nine others (R19). -/
theorem get_set_other {r r' : DescReg} (d : Descriptor) (v : Nat) (h : r' ≠ r) : (d.set r v).get r' = d.get r' := by
  cases r <;> cases r' <;> simp [Descriptor.get, Descriptor.set] at h ⊢

/-- No two descriptor registers have one number (R19). -/
theorem number_injective {r r' : DescReg} (h : r.number = r'.number) : r = r' := by
  cases r <;> cases r' <;> simp [DescReg.number] at h ⊢

@[simp] theorem isWritten_writeDescriptor_same (r : DescReg) (v : Nat) (s : State) :
    (writeDescriptor r v s).isWritten r = true := by
  simp [State.isWritten]

theorem isWritten_writeDescriptor_other {r r' : DescReg} (v : Nat) (s : State) (h : r' ≠ r) :
    (writeDescriptor r v s).isWritten r' = s.isWritten r' := by
  have hn : r.number.val ≠ r'.number.val := fun e => h (number_injective (Fin.ext e)).symm
  simp [State.isWritten, hn]

/-- What a descriptor write of a value that fits leaves in the ten registers and in their flags (R19, R20). -/
theorem writeDescriptor_registers {r : DescReg} {v : Nat} {s : State} (h : v < 2 ^ r.width s.params) :
    (writeDescriptor r v s).desc.get r = v ∧ (writeDescriptor r v s).isWritten r = true ∧
      ∀ r', r' ≠ r → (writeDescriptor r v s).desc.get r' = s.desc.get r' ∧
        (writeDescriptor r v s).isWritten r' = s.isWritten r' :=
  ⟨get_set_same s.desc h, isWritten_writeDescriptor_same r v s,
    fun _ hr => ⟨get_set_other s.desc v hr, isWritten_writeDescriptor_other v s hr⟩⟩

/-- A free value of `width` bits fits in `width` bits (log 4). -/
theorem freeBits_lt (s : State) (width : Nat) : freeBits s width < 2 ^ width := Nat.mod_lt _ (Nat.two_pow_pos width)

/-- In IDLE a descriptor write is the move of `descriptorWrite` (R20). -/
theorem step_write_desc {s : State} {r : DescReg} {v : Nat} {rest : List HostMove} (hl : s.listing = []) (hp : s.ph = .idle)
    (hh : s.host = .write (.desc r) v :: rest) : step s = .next (descriptorWrite r v { s with host := rest }) := by
  simp [step_host hl hh, hostStep, hostWrite, State.busy, hp]

/-- In IDLE a read of a written descriptor register returns what it holds (R19). -/
theorem step_read_desc {s : State} {r : DescReg} {rest : List HostMove} (hl : s.listing = []) (hp : s.ph = .idle)
    (hw : s.isWritten r = true) (hh : s.host = .read (.desc r) :: rest) :
    step s = .next (returnValue (s.desc.get r) { s with host := rest }) := by
  rw [step_host hl hh]
  exact (if_neg (by simp [State.busy, hp])).trans (if_pos hw)

/-- Settles O55: a write that fits stores the value and a read returns it; one that does not fit stores a free value. -/
theorem descriptorReadsBackWhatWasWritten : Obligations.DescriptorReadsBackWhatWasWritten := by
  constructor
  · intro s r v rest hl hp hv hh
    let u := writeDescriptor r v { s with host := .read (.desc r) :: rest }
    have hwrite : step s = .next u := by rw [step_write_desc hl hp hh, descriptorWrite, if_pos hv]
    have hread : step u = .next (returnValue (u.desc.get r) { u with host := rest }) :=
      step_read_desc hl hp (isWritten_writeDescriptor_same ..) rfl
    obtain ⟨hget, hflag, hothers⟩ := writeDescriptor_registers (s := { s with host := .read (.desc r) :: rest }) hv
    refine ⟨returnValue (u.desc.get r) { u with host := rest }, ?_, hget, hget, hflag, hothers, rfl⟩
    simp only [Host.Core.run, core, hwrite, hread]
  · intro s r v rest hl hp hv hh
    let s' := drawFree { s with host := rest }
    have hfree : freeBits { s with host := rest } (r.width s.params) < 2 ^ r.width s'.params := freeBits_lt ..
    obtain ⟨hget, hflag, hothers⟩ := writeDescriptor_registers hfree
    refine ⟨_, ?_, hget.trans_lt hfree, hflag, hothers, rfl⟩
    rw [step_write_desc hl hp hh, descriptorWrite, if_neg (Nat.not_lt.2 hv)]

/-- Without `Ok(c)` CTR_OUT holds no value (R23). -/
theorem ctrOut?_eq_none {s : State} (h : ∀ c, s.result ≠ .ok c) : s.ctrOut? = none := by
  unfold State.ctrOut?
  split
  · rfl
  · exact absurd ‹_› (h _)
  · rfl

/-- Settles O56: a read of STATUS or CTR_OUT answers in every phase, and writes `readData` and the draw of a free value only. -/
theorem hostReadsStatusAndCounterOut : Obligations.HostReadsStatusAndCounterOut := by
  refine ⟨fun s rest hl hh => step_host hl hh, fun s rest c hl hh hr => ?_, fun s rest hl hh hr => ?_⟩
  · simp [step_host hl hh, hostStep, hostRead, State.ctrOut?, hr, returnValue]
  · have hnone : State.ctrOut? { s with host := rest } = none := ctrOut?_eq_none hr
    refine ⟨returnAny 32 { s with host := rest }, ?_, freeBits_lt _ 32, rfl⟩
    simp [step_host hl hh, hostStep, hostRead, hnone]

/-- R24: after reset every word and byte of the datapath is zero. -/
theorem datapathZero_reset : DatapathZero State.reset := ⟨rfl, rfl, rfl, rfl, rfl⟩

/-- R26: after reset no descriptor register holds a value. -/
theorem isWritten_reset (r : DescReg) : State.reset.isWritten r = false := by
  simp [State.isWritten, State.reset]

/-- Settles O51: `State.reset` holds each value as R26 gives it; STATUS and CTR_OUT are views of PH and RESULT. -/
theorem resetValuesOfTheSpec : Obligations.ResetValuesOfTheSpec :=
  ⟨rfl, rfl, rfl, rfl, rfl, rfl, datapathZero_reset, rfl, by decide, rfl, isWritten_reset⟩

end Sys2Proof.Machine
end

/-! ### What a control word writes and what it leaves -/
section
namespace Sys2Proof.Machine

/-- What lies outside the reach of every control word: the descriptor with its flags, the platform, the host's side and the
listing. -/
def surroundings (s : State) : Descriptor × Vector Bool 10 × Config.Params × List Region × List HostMove × List Word × Nat ×
    CallReturn × Nat :=
  (s.desc, s.written, s.params, s.rejects, s.host, s.listing, s.readData, s.returned, s.fresh)

/-- What a control word can do, with its guard: the state after it. Of XFORM it says only that the surroundings stay. -/
inductive Effect (s : State) : Instr → State → Prop
  | validPass (checked : entryError s.desc = none) : Effect s .valid s
  | validTrap (e : Exc) (failed : entryError s.desc = some e) : Effect s .valid (takeTrap e s)
  | ovfchkPass (fits : counterOverflows s.desc = false) : Effect s .ovfchk (setBlockCount s)
  | ovfchkTrap (overflows : counterOverflows s.desc = true) : Effect s .ovfchk (takeTrap .counterOverflow s)
  | ldkn (accepted : firstFault s (loadAccesses s) = none) : Effect s .ldkn (latchWords s)
  | init : Effect s .init (initialise s)
  | qr (a b c d : BitVec 4) (legal : (Instr.qr a b c d).wf = true) : Effect s (.qr a b c d)
      (s.mapX (quarterRound (wordIndex a) (wordIndex b) (wordIndex c) (wordIndex d)))
  | colr : Effect s .colr (s.mapX columnRound)
  | diagr : Effect s .diagr (s.mapX diagonalRound)
  | dround : Effect s .dround (s.mapX doubleRound)
  | ffadd : Effect s .ffadd (addSaved s)
  | ser : Effect s .ser (serialiseX s)
  | block (legal : s.desc.rounds = 8 ∨ s.desc.rounds = 12 ∨ s.desc.rounds = 20) (initialised : s.x = s.saved) :
      Effect s .block (transformBlock s)
  | xorb (m : Byte) (legal : (Instr.xorb m).wf = true) (apart : overlayRefusal s m.toNat = none)
      (accepted : firstFault s (overlayAccesses s m.toNat) = none) :
      Effect s (.xorb m) { s with mem := overlayMem s m.toNat }
  | wipe : Effect s .wipe (wipeRegisters s)
  | ctrinc : Effect s .ctrinc (advanceCounter s)
  | ret : Effect s .ret (endCommand s)
  | xform (t : State) (outside : surroundings t = surroundings s) : Effect s .xform t

/-- One block of XFORM leaves the surroundings. -/
theorem commandBlock_surroundings {s t : State} (h : commandBlock s = .next t) : surroundings t = surroundings s := by
  obtain ⟨u, hu, ht⟩ := andThen_eq_next.1 h
  obtain ⟨-, -, rfl⟩ := overlay_eq_next.1 hu
  obtain rfl := Host.Outcome.next.inj ht
  simp [surroundings]

/-- XFORM's loop leaves the surroundings: induction on the blocks that are left. -/
theorem commandBlocks_surroundings {blocks : Nat} {s t : State} (h : commandBlocks blocks s = .next t) :
    surroundings t = surroundings s := by
  induction blocks generalizing s with
  | zero => exact congrArg surroundings (Host.Outcome.next.inj h).symm
  | succ blocks ih =>
    obtain ⟨u, hu, ht⟩ := andThen_eq_next.1 h
    exact (ih ht).trans (commandBlock_surroundings hu)

/-- So does its body: LDKN and the loop, then WIPE and RET. -/
theorem commandBody_surroundings {s t : State} (h : commandBody s = .next t) : surroundings t = surroundings s := by
  obtain ⟨u, hu, ht⟩ := andThen_eq_next.1 h
  have loop : surroundings u = surroundings s := by
    split at hu
    · exact congrArg surroundings (Host.Outcome.next.inj hu).symm
    · obtain ⟨v, hv, hu⟩ := andThen_eq_next.1 hu
      obtain ⟨-, rfl⟩ := loadKeyNonce_eq_next.1 hv
      exact (commandBlocks_surroundings hu).trans (by simp [surroundings])
  obtain rfl := Host.Outcome.next.inj ht
  exact loop

/-- XFORM leaves the surroundings, whether it traps or runs the whole command (R116). -/
theorem runCommand_surroundings {s t : State} (h : runCommand s = .next t) : surroundings t = surroundings s := by
  simp only [runCommand] at h
  split at h
  · obtain rfl := Host.Outcome.next.inj h
    simp [surroundings]
  · split at h
    · obtain rfl := Host.Outcome.next.inj h
      simp [surroundings]
    · exact (commandBody_surroundings h).trans (by simp [surroundings])

/-- An effect is one on the state the word answers. -/
theorem Effect.of_next {i : Instr} {s t u : State} (he : Effect s i u)
    (h : (.next u : Host.Outcome State Fault Refusal) = .next t) : Effect s i t :=
  Host.Outcome.next.inj h ▸ he

/-- Every control word that goes on does what `Effect` says of it. -/
theorem exec_effect {i : Instr} {s t : State} (h : exec i s = .next t) : Effect s i t := by
  cases i with
  | valid =>
    simp only [exec, execValid] at h
    split at h
    · exact .of_next (.validTrap _ ‹_›) h
    · exact .of_next (.validPass ‹_›) h
  | ovfchk =>
    simp only [exec, execOvfchk] at h
    split at h
    · exact .of_next (.ovfchkTrap ‹_›) h
    · exact .of_next (.ovfchkPass (Bool.eq_false_iff.2 ‹_›)) h
  | ldkn =>
    obtain ⟨accepted, rfl⟩ := loadKeyNonce_eq_next.1 h
    exact .ldkn accepted
  | qr a b c d =>
    simp only [exec, execQr] at h
    split at h
    · exact .of_next (.qr a b c d ‹_›) h
    · cases h
  | block =>
    obtain ⟨legal, initialised, rfl⟩ := execBlock_eq_next.1 h
    exact .block legal initialised
  | xorb m =>
    simp only [exec, execXorb] at h
    split at h
    · obtain ⟨apart, accepted, rfl⟩ := overlay_eq_next.1 h
      exact .xorb m ‹_› apart accepted
    · cases h
  | xform =>
    simp only [exec, execXform] at h
    split at h
    · cases h
    · exact .xform t (runCommand_surroundings h)
  | init => exact .of_next .init h
  | colr => exact .of_next .colr h
  | diagr => exact .of_next .diagr h
  | dround => exact .of_next .dround h
  | ffadd => exact .of_next .ffadd h
  | ser => exact .of_next .ser h
  | wipe => exact .of_next .wipe h
  | ctrinc => exact .of_next .ctrinc h
  | ret => exact .of_next .ret h

/-- No control word changes the surroundings (R20). -/
theorem Effect.surroundings_eq {i : Instr} {s t : State} (h : Effect s i t) : surroundings t = surroundings s := by
  cases h with
  | xform _ outside => exact outside
  | _ => simp [surroundings]

/-- Settles O48: the surroundings stay by `Effect.surroundings_eq`; each register is read off the word's effect. -/
theorem wordsLeaveWhatTheyDoNotName : Obligations.WordsLeaveWhatTheyDoNotName := by
  intro i s t h
  have he := exec_effect h
  refine ⟨?_, ?_⟩
  · simpa [surroundings] using he.surroundings_eq
  · cases he <;> simp

end Sys2Proof.Machine
end

/-! ### The invariant of the engine, phase by phase -/
section
namespace Sys2Proof.Safety

open Sys2Proof.Machine

/-- The part of the invariant that holds of a command in every phase. -/
structure Running (s : State) : Prop where
  noResult : s.result = .none
  written : ∀ r, s.isWritten r = true
  counter : s.ctr.toNat = s.desc.counter.toNat + s.blk.toNat
  ranges : LegalRanges s.params s.desc

/-- The part of the invariant that holds of a command once OVFCHK has passed. -/
structure Counted (s : State) : Prop extends Running s where
  checked : entryError s.desc = none
  blocks : s.nblk.toNat = (s.desc.inLen + 63) / 64
  noOverflow : s.desc.counter.toNat + s.nblk.toNat ≤ 2 ^ 32 - 1

/-- A command with a block left to process. -/
structure InBlock (s : State) : Prop extends Counted s where
  left : s.blk.toNat < s.nblk.toNat

/-- A command with no block left. -/
structure Finished (s : State) : Prop extends Counted s where
  done : s.blk = s.nblk

/-- DR and QI outside the rounds (R110, R81, R115). -/
def RoundsAtRest (s : State) : Prop := s.dr = 0 ∧ s.qi = 0

/-- What the invariant says of the registers in each phase: `EngineInv` read by phase instead of by register. -/
inductive PhaseInv (s : State) : Prop
  | idle (ph : s.ph = .idle) (rest : RoundsAtRest s) (zero : DatapathZero s)
  | valid (ph : s.ph = .valid) (rest : RoundsAtRest s) (zero : DatapathZero s) (run : Running s)
      (uncounted : s.blk = 0 ∧ s.nblk = 0)
  | ovf (ph : s.ph = .ovf) (rest : RoundsAtRest s) (zero : DatapathZero s) (run : Running s)
      (uncounted : s.blk = 0 ∧ s.nblk = 0) (checked : entryError s.desc = none)
  | load (ph : s.ph = .load) (rest : RoundsAtRest s) (zero : DatapathZero s) (run : InBlock s)
  | init (ph : s.ph = .init) (rest : RoundsAtRest s) (run : InBlock s)
  | qr (ph : s.ph = .qr) (run : InBlock s) (round : s.dr.toNat < s.desc.rounds.toNat / 2)
      (original : s.saved = initialWords s.k s.n s.ctr) (fresh : s.dr = 0 → s.qi = 0 → s.x = s.saved)
  | ffadd (ph : s.ph = .ffadd) (rest : RoundsAtRest s) (run : InBlock s) (original : s.saved = initialWords s.k s.n s.ctr)
  | ser (ph : s.ph = .ser) (rest : RoundsAtRest s) (run : InBlock s)
  | xor (ph : s.ph = .xor) (rest : RoundsAtRest s) (run : InBlock s)
  | inc (ph : s.ph = .inc) (rest : RoundsAtRest s) (run : InBlock s)
  | wipe (ph : s.ph = .wipe) (rest : RoundsAtRest s) (run : Finished s)
  | ret (ph : s.ph = .ret) (rest : RoundsAtRest s) (zero : DatapathZero s) (run : Finished s)

variable {s t : State}

/-! From the clauses of `EngineInv` to the phases. -/

theorem EngineInv.running (h : EngineInv s) (hb : s.ph ≠ .idle) : Running s :=
  ⟨h.noResult hb, h.written hb, h.counter hb, h.ranges hb⟩

theorem EngineInv.inBlock (h : EngineInv s) (hl : inBlockLoop s.ph = true) : InBlock s := by
  have hb : s.ph ≠ .idle := fun hp => by simp [hp, inBlockLoop] at hl
  have hv : s.ph ≠ .valid := fun hp => by simp [hp, inBlockLoop] at hl
  obtain ⟨blocks, noOverflow⟩ := h.counted (.inl hl)
  exact ⟨⟨h.running hb, h.checked hb hv, blocks, noOverflow⟩, h.blockLeft hl⟩

theorem EngineInv.finished (h : EngineInv s) (hp : s.ph = .wipe ∨ s.ph = .ret) : Finished s := by
  have hb : s.ph ≠ .idle := by rcases hp with hp | hp <;> simp [hp]
  have hv : s.ph ≠ .valid := by rcases hp with hp | hp <;> simp [hp]
  obtain ⟨blocks, noOverflow⟩ := h.counted (.inr hp)
  exact ⟨⟨h.running hb, h.checked hb hv, blocks, noOverflow⟩, h.blocksDone hp⟩

/-- The invariant, read by phase. -/
theorem EngineInv.phase (h : EngineInv s) : PhaseInv s := by
  by_cases hq : s.ph = .qr
  · exact .qr hq (h.inBlock (by simp [hq, inBlockLoop])) (h.roundIndex hq) (h.original (.inl hq)) (h.fresh hq)
  have rest : RoundsAtRest s := h.roundRest hq
  have zero := h.zero
  have running := h.running
  have inBlock := h.inBlock
  cases hp : s.ph <;> simp only [hp, holdsKey, inBlockLoop] at zero running inBlock
  case qr => exact absurd hp hq
  case idle => exact .idle hp rest (zero trivial)
  case valid => exact .valid hp rest (zero trivial) (running nofun) (h.uncounted (.inl hp))
  case ovf =>
    exact .ovf hp rest (zero trivial) (running nofun) (h.uncounted (.inr hp)) (h.checked (by simp [hp]) (by simp [hp]))
  case load => exact .load hp rest (zero trivial) (inBlock trivial)
  case init => exact .init hp rest (inBlock trivial)
  case ffadd => exact .ffadd hp rest (inBlock trivial) (h.original (.inr hp))
  case ser => exact .ser hp rest (inBlock trivial)
  case xor => exact .xor hp rest (inBlock trivial)
  case inc => exact .inc hp rest (inBlock trivial)
  case wipe => exact .wipe hp rest (h.finished (.inl hp))
  case ret => exact .ret hp rest (zero trivial) (h.finished (.inr hp))

/-! From the phases back to the clauses. -/

theorem PhaseInv.inBlock (h : PhaseInv s) (hl : inBlockLoop s.ph = true) : InBlock s := by
  cases h <;> simp_all [inBlockLoop]

theorem PhaseInv.finished (h : PhaseInv s) (hp : s.ph = .wipe ∨ s.ph = .ret) : Finished s := by
  cases h <;> simp_all

theorem PhaseInv.counted (h : PhaseInv s) (hc : inBlockLoop s.ph = true ∨ s.ph = .wipe ∨ s.ph = .ret) : Counted s :=
  hc.elim (fun hl => (h.inBlock hl).toCounted) fun hp => (h.finished hp).toCounted

theorem PhaseInv.running (h : PhaseInv s) (hb : s.ph ≠ .idle) : Running s := by
  by_cases hc : inBlockLoop s.ph = true ∨ s.ph = .wipe ∨ s.ph = .ret
  · exact (h.counted hc).toRunning
  · cases h <;> simp_all [inBlockLoop]

theorem PhaseInv.checked (h : PhaseInv s) (hb : s.ph ≠ .idle) (hv : s.ph ≠ .valid) : entryError s.desc = none := by
  by_cases hc : inBlockLoop s.ph = true ∨ s.ph = .wipe ∨ s.ph = .ret
  · exact (h.counted hc).checked
  · cases h <;> simp_all [inBlockLoop]

theorem PhaseInv.roundRest (h : PhaseInv s) (hq : s.ph ≠ .qr) : RoundsAtRest s := by
  cases h <;> simp_all

/-- The legal round counts are 8, 12 and 20 (R66). -/
theorem Counted.rounds_bounds (h : Counted s) : 8 ≤ s.desc.rounds.toNat ∧ s.desc.rounds.toNat ≤ 20 := by
  obtain ⟨-, -, -, hr⟩ := entryError_eq_none.1 h.checked
  rcases hr with hr | hr | hr <;> simp [hr]

theorem PhaseInv.roundIndex (h : PhaseInv s) (hq : s.ph = .qr) : s.dr.toNat < s.desc.rounds.toNat / 2 := by
  cases h <;> simp_all

/-- DR is at most 9, as a command has at most ten double-rounds (R17, R94). -/
theorem PhaseInv.roundBound (h : PhaseInv s) : s.dr.toNat ≤ 9 := by
  by_cases hq : s.ph = .qr
  · have := (h.inBlock (by simp [hq, inBlockLoop])).rounds_bounds
    have := h.roundIndex hq
    omega
  · simp [(h.roundRest hq).1]

/-- The facts of the phase, with the three clauses that do not depend on it, are the invariant. -/
theorem engineInv_of_phase (noListing : s.listing = []) (memWf : Memory.wf s.mem)
    (widths : ∀ r, s.desc.get r < 2 ^ r.width s.params) (h : PhaseInv s) : EngineInv s where
  noListing := noListing
  memWf := memWf
  zero := by cases h <;> simp_all [holdsKey]
  noResult hb := (h.running hb).noResult
  written hb := (h.running hb).written
  checked := h.checked
  uncounted := by cases h <;> simp_all
  counted hc := ⟨(h.counted hc).blocks, (h.counted hc).noOverflow⟩
  counter hb := (h.running hb).counter
  blockLeft hl := (h.inBlock hl).left
  blocksDone hp := (h.finished hp).done
  ranges hb := (h.running hb).ranges
  roundIndex := h.roundIndex
  roundBound := h.roundBound
  roundRest := h.roundRest
  original := by cases h <;> simp_all
  fresh := by cases h <;> simp_all
  widths := widths

/-! ### The registers that stand still between OVFCHK and CTRINC -/

/-- The registers the facts about a running command speak of. -/
def commandRegs (s : State) : Result × Vector Bool 10 × Word × Word × Word × Descriptor × Config.Params :=
  (s.result, s.written, s.ctr, s.blk, s.nblk, s.desc, s.params)

theorem Running.congr (h : Running s) (he : commandRegs t = commandRegs s) : Running t := by
  simp only [commandRegs, Prod.mk.injEq] at he
  obtain ⟨hresult, hwritten, hctr, hblk, -, hdesc, hparams⟩ := he
  refine ⟨hresult ▸ h.noResult, fun r => ?_, ?_, ?_⟩
  · rw [State.isWritten, hwritten]; exact h.written r
  · rw [hctr, hdesc, hblk]; exact h.counter
  · rw [hparams, hdesc]; exact h.ranges

theorem Counted.congr (h : Counted s) (he : commandRegs t = commandRegs s) : Counted t := by
  have run := h.toRunning.congr he
  simp only [commandRegs, Prod.mk.injEq] at he
  obtain ⟨-, -, -, -, hnblk, hdesc, -⟩ := he
  refine ⟨run, ?_, ?_, ?_⟩ <;> simp only [hnblk, hdesc]
  exacts [h.checked, h.blocks, h.noOverflow]

theorem InBlock.congr (h : InBlock s) (he : commandRegs t = commandRegs s) : InBlock t := by
  have run := h.toCounted.congr he
  simp only [commandRegs, Prod.mk.injEq] at he
  obtain ⟨-, -, -, hblk, hnblk, -, -⟩ := he
  exact ⟨run, by rw [hblk, hnblk]; exact h.left⟩

theorem Finished.congr (h : Finished s) (he : commandRegs t = commandRegs s) : Finished t := by
  have run := h.toCounted.congr he
  simp only [commandRegs, Prod.mk.injEq] at he
  obtain ⟨-, -, -, hblk, hnblk, -, -⟩ := he
  exact ⟨run, by rw [hblk, hnblk]; exact h.done⟩

end Sys2Proof.Safety
end

/-! ### The engine's step keeps the invariant -/
section
namespace Sys2Proof.Machine

open Sys2Proof.Safety

variable {s t : State}

/-- The engine's step is the effect of the word it issues and the move of PC, or nothing when it is idle (R115). -/
theorem engineStep_effect (h : engineStep s = .next t) :
    (s.ph = .idle ∧ t = s) ∨ ∃ i u, issue s = some i ∧ Effect s i u ∧ t = advance u := by
  by_cases hp : s.ph = .idle
  · rw [engineStep_idle hp] at h
    exact .inl ⟨hp, (Host.Outcome.next.inj h).symm⟩
  · obtain ⟨-, i, u, hi, hu, ht⟩ := engineStep_busy_cases hp h
    exact .inr ⟨i, u, hi, exec_effect hu, ht⟩

/-- The step of a phase whose word is known. -/
theorem engineStep_issued {i : Instr} (hi : issue s = some i) (h : engineStep s = .next t) :
    ∃ u, Effect s i u ∧ t = advance u := by
  obtain ⟨hp, -⟩ | ⟨j, u, hj, hu, ht⟩ := engineStep_effect h
  · simp [issue, hp] at hi
  · obtain rfl : j = i := Option.some.inj (hj.symm.trans hi)
    exact ⟨u, hu, ht⟩

/-- P_XOR issues XORB or nothing (R123). -/
theorem issue_of_xor {i : Instr} (ph : s.ph = .xor) (hi : issue s = some i) : ∃ m, i = .xorb m := by
  simp only [issue, ph, issuedOverlay] at hi
  split at hi
  · exact ⟨_, (Option.some.inj hi).symm⟩
  · cases hi

/-- The sequencer never issues XFORM (R64). -/
theorem issue_ne_xform : issue s ≠ some .xform := by
  cases hp : s.ph with
  | xor =>
    intro hi
    obtain ⟨m, hm⟩ := issue_of_xor hp hi
    cases hm
  | _ => simp [issue, hp, tupleInstr]

/-! PC after a word, by the phase that issued it (R115, third column). -/

theorem advance_of_valid (h : s.ph = .valid) : advance s = { s with ph := .ovf } := by simp [advance, h]
theorem advance_of_ovf (h : s.ph = .ovf) :
    advance s = if s.nblk = 0 then { s with ph := .wipe } else { s with ph := .load } := by simp [advance, h]
theorem advance_of_load (h : s.ph = .load) : advance s = { s with ph := .init } := by simp [advance, h]
theorem advance_of_init (h : s.ph = .init) : advance s = { s with ph := .qr } := by simp [advance, h]
theorem advance_of_qr (h : s.ph = .qr) : advance s = advanceQr s := by simp [advance, h]
theorem advance_of_ffadd (h : s.ph = .ffadd) : advance s = { s with ph := .ser } := by simp [advance, h]
theorem advance_of_ser (h : s.ph = .ser) : advance s = { s with ph := .xor } := by simp [advance, h]
theorem advance_of_xor (h : s.ph = .xor) : advance s = { s with ph := .inc } := by simp [advance, h]
theorem advance_of_inc (h : s.ph = .inc) : advance s = advanceInc s := by simp [advance, h]
theorem advance_of_wipe (h : s.ph = .wipe) : advance s = { s with ph := .ret } := by simp [advance, h]

/-- The trap leaves an engine whose registers are at rest idle (R157). -/
theorem phaseInv_takeTrap (e : Exc) (rest : RoundsAtRest s) (zero : DatapathZero s) : PhaseInv (advance (takeTrap e s)) :=
  .idle rfl rest { zero with }

/-- VALID: trap to IDLE, or on to OVFCHK (R111). -/
theorem phaseInv_valid (ph : s.ph = .valid) (rest : RoundsAtRest s) (zero : DatapathZero s) (run : Running s)
    (uncounted : s.blk = 0 ∧ s.nblk = 0) (h : Effect s .valid t) : PhaseInv (advance t) := by
  cases h with
  | validTrap e => exact phaseInv_takeTrap e rest zero
  | validPass checked =>
    rw [advance_of_valid ph]
    exact .ovf rfl rest { zero with } (run.congr rfl) uncounted checked

/-- OVFCHK's test, as an inequality (R112). -/
theorem counterOverflows_eq_false {d : Descriptor} :
    counterOverflows d = false ↔ d.counter.toNat + (d.inLen + 63) / 64 ≤ 2 ^ 32 - 1 := by
  rw [counterOverflows, decide_eq_false_iff_not, Nat.not_lt]
  rfl

/-- OVFCHK counts the blocks without a wrap of NBLK when it passes (R112). -/
theorem counted_setBlockCount (run : Running s) (checked : entryError s.desc = none)
    (fits : counterOverflows s.desc = false) : Counted (setBlockCount s) := by
  rw [counterOverflows_eq_false] at fits
  have hn : (setBlockCount s).nblk.toNat = (s.desc.inLen + 63) / 64 := by
    simp only [setBlockCount_nblk, blockCount, Config.blockSize, BitVec.toNat_ofNat]
    omega
  exact ⟨⟨run.noResult, run.written, run.counter, run.ranges⟩, checked, hn, hn ▸ fits⟩

/-- OVFCHK: trap to IDLE, on to WIPE without a block, or into the loop (R112, R115). -/
theorem phaseInv_ovfchk (ph : s.ph = .ovf) (rest : RoundsAtRest s) (zero : DatapathZero s) (run : Running s)
    (uncounted : s.blk = 0 ∧ s.nblk = 0) (checked : entryError s.desc = none) (h : Effect s .ovfchk t) :
    PhaseInv (advance t) := by
  obtain ⟨hblk, -⟩ := uncounted
  cases h with
  | ovfchkTrap => exact phaseInv_takeTrap _ rest zero
  | ovfchkPass fits =>
    have counted := counted_setBlockCount run checked fits
    rw [advance_of_ovf ((setBlockCount_ph s).trans ph)]
    split
    · rename_i hn
      exact .wipe rfl rest ⟨counted.congr rfl, hblk.trans hn.symm⟩
    · rename_i hn
      have left : s.blk.toNat < (setBlockCount s).nblk.toNat := by
        rw [hblk]
        bv_omega
      exact .load rfl rest { zero with } ⟨counted.congr rfl, left⟩

/-- The quarter-round and the counters of the rounds (R115, row P_QR). -/
theorem phaseInv_advanceQr (ph : s.ph = .qr) (run : InBlock s) (round : s.dr.toNat < s.desc.rounds.toNat / 2)
    (original : s.saved = initialWords s.k s.n s.ctr) : PhaseInv (advanceQr s) := by
  have := run.rounds_bounds
  unfold advanceQr
  split
  · refine .qr ph (run.congr rfl) round original fun _ hq => ?_
    simp only at hq
    bv_omega
  · split
    · exact .ffadd rfl ⟨rfl, rfl⟩ (run.congr rfl) original
    · rename_i hlast
      have hdr : (s.dr + 1).toNat = s.dr.toNat + 1 := by bv_omega
      simp only [doubleRoundCount] at hlast
      refine .qr ph (run.congr rfl) (by simp only [hdr]; omega) original fun hd => ?_
      simp only at hd
      bv_omega

/-- CTRINC and the next block: neither CTR nor BLK wraps (R113, R115, row P_INC). -/
theorem phaseInv_advanceInc (rest : RoundsAtRest s) (run : InBlock s) :
    PhaseInv (advanceInc (advanceCounter s)) := by
  have left := run.left
  have noOverflow := run.noOverflow
  have hctr : (s.ctr + 1).toNat = s.ctr.toNat + 1 := by have := run.counter; bv_omega
  have hblk : (s.blk + 1).toNat = s.blk.toNat + 1 := by bv_omega
  have counted : Counted (advanceBlock (advanceCounter s)) :=
    ⟨⟨run.noResult, run.written, hctr.trans (by rw [run.counter, Nat.add_assoc, ← hblk]; rfl), run.ranges⟩, run.checked,
      run.blocks, noOverflow⟩
  unfold advanceInc
  split
  · rename_i hlast
    exact .wipe rfl rest ⟨counted.congr rfl, BitVec.eq_of_toNat_eq (hblk.trans hlast)⟩
  · rename_i hlast
    simp only [advanceCounter_blk, advanceCounter_nblk] at hlast
    have more : s.blk.toNat + 1 < s.nblk.toNat := by omega
    exact .init rfl rest ⟨counted.congr rfl, hblk.trans_lt more⟩

/-- Every step of the engine leads from the facts of its phase to those of the next one (R115). After FFADD and SER the frame
goes by `simp`: a `rfl` there would compare, and so evaluate, X and KS. -/
theorem engineStep_phaseInv (h : PhaseInv s) (hs : engineStep s = .next t) : PhaseInv t := by
  cases h with
  | idle ph rest zero =>
    rw [engineStep_idle ph] at hs
    exact Host.Outcome.next.inj hs ▸ .idle ph rest zero
  | valid ph rest zero run uncounted =>
    obtain ⟨u, hu, rfl⟩ := engineStep_issued (by rw [issue, ph]) hs
    exact phaseInv_valid ph rest zero run uncounted hu
  | ovf ph rest zero run uncounted checked =>
    obtain ⟨u, hu, rfl⟩ := engineStep_issued (by rw [issue, ph]) hs
    exact phaseInv_ovfchk ph rest zero run uncounted checked hu
  | load ph rest zero run =>
    obtain ⟨u, ⟨⟩, rfl⟩ := engineStep_issued (by rw [issue, ph]) hs
    rw [advance_of_load ((latchWords_ph s).trans ph)]
    exact .init rfl rest (run.congr rfl)
  | init ph rest run =>
    obtain ⟨u, ⟨⟩, rfl⟩ := engineStep_issued (by rw [issue, ph]) hs
    have := run.rounds_bounds
    rw [advance_of_init ((initialise_ph s).trans ph)]
    exact .qr rfl (run.congr rfl) (show 0 < s.desc.rounds.toNat / 2 by omega) rfl fun _ _ => rfl
  | qr ph run round original =>
    obtain ⟨u, ⟨⟩, rfl⟩ := engineStep_issued (by rw [issue, ph, tupleInstr]) hs
    rw [advance_of_qr ((mapX_ph s _).trans ph)]
    exact phaseInv_advanceQr ph (run.congr rfl) round original
  | ffadd ph rest run =>
    obtain ⟨u, ⟨⟩, rfl⟩ := engineStep_issued (by rw [issue, ph]) hs
    rw [advance_of_ffadd ((addSaved_ph s).trans ph)]
    exact .ser rfl (by simpa [RoundsAtRest] using rest) (run.congr (by simp [commandRegs]))
  | ser ph rest run =>
    obtain ⟨u, ⟨⟩, rfl⟩ := engineStep_issued (by rw [issue, ph]) hs
    rw [advance_of_ser ((serialiseX_ph s).trans ph)]
    exact .xor rfl (by simpa [RoundsAtRest] using rest) (run.congr (by simp [commandRegs]))
  | xor ph rest run =>
    obtain ⟨hp, -⟩ | ⟨i, u, hi, hu, rfl⟩ := engineStep_effect hs
    · rw [ph] at hp; cases hp
    · obtain ⟨m, rfl⟩ := issue_of_xor ph hi
      cases hu
      rw [advance_of_xor (s := { s with mem := overlayMem s m.toNat }) ph]
      exact .inc rfl rest (run.congr rfl)
  | inc ph rest run =>
    obtain ⟨u, ⟨⟩, rfl⟩ := engineStep_issued (by rw [issue, ph]) hs
    rw [advance_of_inc ((advanceCounter_ph s).trans ph)]
    exact phaseInv_advanceInc rest run
  | wipe ph rest run =>
    obtain ⟨u, ⟨⟩, rfl⟩ := engineStep_issued (by rw [issue, ph]) hs
    rw [advance_of_wipe ((wipeRegisters_ph s).trans ph)]
    exact .ret rfl rest ⟨rfl, rfl, rfl, rfl, rfl⟩ (run.congr rfl)
  | ret ph rest zero run =>
    obtain ⟨u, ⟨⟩, rfl⟩ := engineStep_issued (by rw [issue, ph]) hs
    exact .idle rfl rest { zero with }

/-- The move of PC writes PC alone (R115). -/
theorem advance_frame (s : State) : advance s =
    { s with ph := (advance s).ph, blk := (advance s).blk, dr := (advance s).dr, qi := (advance s).qi } := by
  unfold advance advanceQr advanceInc
  repeat' split
  all_goals rfl

theorem advance_surroundings (s : State) : surroundings (advance s) = surroundings s :=
  (congrArg surroundings (advance_frame s)).trans rfl

theorem advance_mem (s : State) : (advance s).mem = s.mem :=
  (congrArg State.mem (advance_frame s)).trans rfl

/-- A step of the engine leaves the surroundings (R20). -/
theorem engineStep_surroundings (h : engineStep s = .next t) : surroundings t = surroundings s := by
  obtain ⟨-, rfl⟩ | ⟨i, u, -, hu, rfl⟩ := engineStep_effect h
  · rfl
  · exact (advance_surroundings u).trans hu.surroundings_eq

/-- A word of the sequencer leaves memory, or overlays it (R40). -/
theorem Effect.mem_cases {i : Instr} (h : Effect s i t) (hi : i ≠ .xform) :
    t.mem = s.mem ∨ ∃ m, t.mem = overlayMem s m := by
  cases h with
  | xform => exact absurd rfl hi
  | xorb m => exact .inr ⟨m.toNat, rfl⟩
  | _ => simp

/-- A step of the engine keeps the memory's canonical form (R40; log 2). -/
theorem engineStep_memWf (hw : Memory.wf s.mem) (h : engineStep s = .next t) : Memory.wf t.mem := by
  obtain ⟨-, rfl⟩ | ⟨i, u, hi, hu, rfl⟩ := engineStep_effect h
  · exact hw
  · rw [advance_mem]
    obtain hm | ⟨m, hm⟩ := hu.mem_cases fun hx => issue_ne_xform (hx ▸ hi)
    · rwa [hm]
    · exact hm ▸ overlayMem_wf hw m

/-- The engine's step keeps the invariant. -/
theorem engineStep_engineInv (h : EngineInv s) (hs : engineStep s = .next t) : EngineInv t := by
  have frame := engineStep_surroundings hs
  simp only [surroundings, Prod.mk.injEq] at frame
  obtain ⟨hdesc, -, hparams, -, -, hlisting, -⟩ := frame
  refine engineInv_of_phase (hlisting.trans h.noListing) (engineStep_memWf h.memWf hs) ?_ (engineStep_phaseInv h.phase hs)
  rw [hdesc, hparams]
  exact h.widths

/-- The invariant does not look at the host's own fields, and of memory it asks the canonical form only. -/
theorem engineInv_of_engine_eq (h : EngineInv s) (memWf : Memory.wf t.mem)
    (he : t = { s with mem := t.mem, host := t.host, readData := t.readData, returned := t.returned, fresh := t.fresh }) :
    EngineInv t := by
  rw [he]
  exact { h with
    memWf := memWf
    zero := fun hp => { h.zero hp with } }

/-! ### Reset -/

/-- Reset gives the state after reset, on the widths and the memory there are (R180). -/
theorem engineInv_resetEngine (noListing : s.listing = []) (memWf : Memory.wf s.mem) : EngineInv (resetEngine s) := by
  refine engineInv_of_phase noListing memWf (fun r => ?_) (.idle rfl ⟨rfl, rfl⟩ { datapathZero_reset with })
  have hzero : (resetEngine s).desc.get r = 0 := by cases r <;> rfl
  rw [hzero]
  exact Nat.two_pow_pos _

/-- Settles O44: the state after reset is the reset of itself. -/
theorem resetMeetsTheEngineInvariant : Obligations.ResetMeetsTheEngineInvariant :=
  engineInv_resetEngine (s := State.reset) rfl ⟨.nil, nofun⟩

/-- A reset in the middle of an XORB keeps the bytes it has written, in canonical form (R181; log 14). -/
theorem resetMove_engineInv {k : Nat} (h : EngineInv s) (ht : resetMove k s = .next t) : EngineInv t := by
  have quiet : EngineInv (resetEngine s) := engineInv_resetEngine h.noListing h.memWf
  unfold resetMove at ht
  split at ht
  · simp only at ht
    split at ht
    · exact Host.Outcome.next.inj ht ▸ quiet
    · obtain ⟨u, hu, ht⟩ := andThen_eq_next.1 ht
      obtain ⟨-, -, rfl⟩ := overlay_eq_next.1 hu
      exact Host.Outcome.next.inj ht ▸ engineInv_resetEngine h.noListing (overlayMem_wf h.memWf _)
  all_goals exact Host.Outcome.next.inj ht ▸ quiet

/-! ### The host's moves keep the invariant -/

/-- A value that fits keeps every register within its width, and an idle engine has no other clause on the descriptor (R19). -/
theorem writeDescriptor_engineInv {r : DescReg} {v : Nat} (h : EngineInv s) (ph : s.ph = .idle)
    (fits : v < 2 ^ r.width s.params) : EngineInv (writeDescriptor r v s) := by
  obtain ⟨hget, -, hothers⟩ := writeDescriptor_registers fits
  refine engineInv_of_phase h.noListing h.memWf (fun r' => ?_)
    (.idle ph (h.roundRest (by simp [ph])) { h.zero (by simp [ph, holdsKey]) with })
  by_cases hr : r' = r
  · rw [hr, hget]; exact fits
  · rw [(hothers r' hr).1]; exact h.widths r'

/-- A value that does not fit is replaced by a free one that does (log 17). -/
theorem descriptorWrite_engineInv (r : DescReg) (v : Nat) (h : EngineInv s) (ph : s.ph = .idle) :
    EngineInv (descriptorWrite r v s) := by
  unfold descriptorWrite
  simp only
  split
  · exact writeDescriptor_engineInv h ph ‹_›
  · exact writeDescriptor_engineInv (engineInv_of_engine_eq h h.memWf rfl) ph (freeBits_lt ..)

/-- START finds no descriptor register unwritten exactly when all ten are written (R182). -/
theorem firstUnwritten_eq_none : firstUnwritten s = none ↔ ∀ r, s.isWritten r = true := by
  have all (r : DescReg) : r ∈ allDescRegs := by cases r <;> decide
  simp [firstUnwritten, all]

/-- START leads from an idle engine to VALID's facts (R110). -/
theorem startMove_engineInv (h : EngineInv s) (ph : s.ph = .idle) (ht : startMove s = .next t) : EngineInv t := by
  obtain ⟨hw, ranges, rfl⟩ := startMove_eq_next.1 ht
  have run : Running (beginCommand s) := ⟨rfl, firstUnwritten_eq_none.1 hw, rfl, ranges⟩
  exact engineInv_of_phase h.noListing h.memWf h.widths
    (.valid rfl ⟨rfl, rfl⟩ { h.zero (by simp [ph, holdsKey]) with } run ⟨rfl, rfl⟩)

/-- A register write goes on in an idle engine only: a descriptor write, START, or a write to CTRL without effect (R20, R21,
R189). -/
theorem hostWrite_eq_next {r : HostReg} {v : Nat} (ht : hostWrite r v s = .next t) :
    s.ph = .idle ∧ ((∃ d, t = descriptorWrite d v s) ∨ startMove s = .next t ∨ t = s) := by
  cases hb : s.busy with
  | true => cases r <;> simp [hostWrite, hb] at ht
  | false =>
    refine ⟨busy_eq_false.1 hb, ?_⟩
    cases r with
    | desc d => exact .inl ⟨d, by simpa [hostWrite, hb] using ht.symm⟩
    | ctrl =>
      by_cases hv : v % 2 = 1
      · exact .inr (.inl (by simpa [hostWrite, hb, hv] using ht))
      · exact .inr (.inr (by simpa [hostWrite, hb, hv] using ht.symm))
    | status => cases ht
    | ctrOut => cases ht

theorem hostWrite_engineInv {r : HostReg} {v : Nat} (h : EngineInv s) (ht : hostWrite r v s = .next t) : EngineInv t := by
  obtain ⟨ph, ⟨d, rfl⟩ | hstart | rfl⟩ := hostWrite_eq_next ht
  · exact descriptorWrite_engineInv d v h ph
  · exact startMove_engineInv h ph hstart
  · exact h

/-- A register read answers `readData`, and draws at most a free value (R25, log 4). -/
theorem hostRead_eq_next {r : HostReg} (ht : hostRead r s = .next t) :
    (∃ v, t = returnValue v s) ∨ ∃ width, t = returnAny width s := by
  unfold hostRead at ht
  split at ht
  · split at ht
    · cases ht
    · split at ht
      · exact .inl ⟨_, (Host.Outcome.next.inj ht).symm⟩
      · exact .inr ⟨_, (Host.Outcome.next.inj ht).symm⟩
  · cases ht
  · exact .inl ⟨_, (Host.Outcome.next.inj ht).symm⟩
  · split at ht
    · exact .inl ⟨_, (Host.Outcome.next.inj ht).symm⟩
    · exact .inr ⟨_, (Host.Outcome.next.inj ht).symm⟩

theorem hostRead_engineInv {r : HostReg} (h : EngineInv s) (ht : hostRead r s = .next t) : EngineInv t := by
  obtain ⟨v, rfl⟩ | ⟨width, rfl⟩ := hostRead_eq_next ht
  · exact engineInv_of_engine_eq h h.memWf rfl
  · exact engineInv_of_engine_eq h h.memWf rfl

/-- A memory access that goes on gives the state it was asked for (R50, R48). -/
theorem hostAccess_eq_next {kind : Access} {a : Nat} {next : State} (ht : hostAccess kind a s next = .next t) : t = next := by
  unfold hostAccess at ht
  split at ht
  · cases ht
  · split at ht
    · cases ht
    · exact (Host.Outcome.next.inj ht).symm

/-- The end of a wrapper's call is a step of the engine, a wait, or the host's own (R70; log 26). -/
theorem finishCall_engineInv {onOk : Word → CallReturn} {rest : List HostMove} (h : EngineInv s)
    (ht : finishCall onOk rest s = .next t) : EngineInv t := by
  unfold finishCall at ht
  split at ht
  · exact engineStep_engineInv h ht
  · split at ht
    · exact Host.Outcome.next.inj ht ▸ h
    · exact Host.Outcome.next.inj ht ▸ engineInv_of_engine_eq h h.memWf rfl
    · exact Host.Outcome.next.inj ht ▸ engineInv_of_engine_eq h h.memWf rfl

/-- Every host move keeps the invariant (R20 to R25, R180 to R183, R189). -/
theorem hostStep_engineInv {move : HostMove} {rest : List HostMove} (h : EngineInv s)
    (ht : hostStep move rest s = .next t) : EngineInv t := by
  have h' : EngineInv { s with host := rest } := engineInv_of_engine_eq h h.memWf rfl
  cases move with
  | write r v => exact hostWrite_engineInv h' ht
  | read r => exact hostRead_engineInv h' ht
  | memWrite a v =>
    obtain rfl := hostAccess_eq_next ht
    exact engineInv_of_engine_eq h (memStore_wf a v h.memWf) rfl
  | memRead a =>
    obtain rfl := hostAccess_eq_next ht
    exact engineInv_of_engine_eq h h.memWf rfl
  | reset k => exact resetMove_engineInv h' ht
  | wait => exact engineStep_engineInv h' ht
  | await =>
    simp only [hostStep] at ht
    split at ht
    · exact engineStep_engineInv h ht
    · exact Host.Outcome.next.inj ht ▸ h'
  | returnCounter => exact finishCall_engineInv h ht
  | returnVoid => exact finishCall_engineInv h ht
  | fail e => exact Host.Outcome.next.inj ht ▸ engineInv_of_engine_eq h h.memWf rfl

/-- Settles O45: without a listing a step is the host's move or the engine's, and both keep the invariant. -/
theorem stepKeepsTheEngineInvariant : Obligations.StepKeepsTheEngineInvariant := by
  intro s t h ht
  cases hh : s.host with
  | nil =>
    rw [step_alone ⟨h.noListing, hh⟩] at ht
    exact engineStep_engineInv h ht
  | cons move rest =>
    rw [step_host h.noListing hh] at ht
    exact hostStep_engineInv h ht

end Sys2Proof.Machine
end

/-! ### Data memory: rejected accesses, refused ranges, the canonical form, the bytes a command writes -/
section
namespace Sys2Proof.Machine

open Sys2Proof.Safety

variable {s t : State}

/-! The first access that memory does not accept (R48, R49). -/

/-- Accesses that can all be made leave the first fault to the accesses after them. -/
theorem firstFault_append_of_none {l : List (Access × Nat)} (h : firstFault s l = none) (l' : List (Access × Nat)) :
    firstFault s (l ++ l') = firstFault s l' := by
  induction l with
  | nil => rfl
  | cons p l ih =>
    obtain ⟨hp, hl⟩ := List.forall_mem_cons.1 (firstFault_eq_none.1 h)
    simp only [List.cons_append, firstFault, hp]
    exact ih (firstFault_eq_none.2 hl)

/-- The first fault is not changed by the accesses after it. -/
theorem firstFault_append_of_some {l : List (Access × Nat)} {f : Fault} (h : firstFault s l = some f)
    (l' : List (Access × Nat)) : firstFault s (l ++ l') = some f := by
  induction l with
  | nil => cases h
  | cons p l ih =>
    cases hp : accessFault s p.1 p.2 with
    | none =>
      simp only [firstFault, hp] at h
      simp only [List.cons_append, firstFault, hp]
      exact ih h
    | some g => simpa [firstFault, hp] using h

/-- In a word that makes the accesses `g 0`, `g 1`, … in this order, the fault of `g j` is the first one when every `g i` before
it can be made. -/
theorem firstFault_range_flatMap {g : Nat → List (Access × Nat)} {m j : Nat} {f : Fault} (hj : j < m)
    (before : ∀ i < j, firstFault s (g i) = none) (fault : firstFault s (g j) = some f) :
    firstFault s ((List.range m).flatMap g) = some f := by
  induction m with
  | zero => cases hj
  | succ m ih =>
    rw [List.range_succ, List.flatMap_append]
    rcases Nat.lt_succ_iff_lt_or_eq.1 hj with hlt | rfl
    · exact firstFault_append_of_some (ih hlt) _
    · have accepted : firstFault s ((List.range j).flatMap g) = none := by
        refine firstFault_eq_none.2 fun p hp => ?_
        obtain ⟨i, hi, hpi⟩ := List.mem_flatMap.1 hp
        exact firstFault_eq_none.1 (before i (List.mem_range.1 hi)) p hpi
      rw [firstFault_append_of_none accepted]
      simpa using fault

/-- A single access faults as the access does. -/
@[simp] theorem firstFault_singleton (kind : Access) (a : Nat) : firstFault s [(kind, a)] = accessFault s kind a := by
  cases h : accessFault s kind a <;> simp [firstFault, h]

/-- The reads of a buffer stop at the first byte that cannot be read (R49). -/
theorem firstFault_readsOf {base len j : Nat} {f : Fault} (hj : j < len)
    (before : ∀ i < j, accessFault s .read (base + i) = none) (fault : accessFault s .read (base + j) = some f) :
    firstFault s (readsOf base len) = some f := by
  rw [readsOf, List.map_eq_flatMap]
  exact firstFault_range_flatMap hj (by simpa using before) (by simpa using fault)

/-- The reads of a buffer can be made when each byte can be read. -/
theorem firstFault_readsOf_eq_none {base len : Nat} (h : ∀ j < len, accessFault s .read (base + j) = none) :
    firstFault s (readsOf base len) = none := by
  rw [firstFault_eq_none, readsOf, List.forall_mem_map]
  exact fun j hj => h j (List.mem_range.1 hj)

/-- The overlay's accesses stop at the first byte that cannot be read or, read, cannot be written (R49, R140). -/
theorem firstFault_overlayAccesses {m j : Nat} {f : Fault} (hj : j < m)
    (before : ∀ i < j, accessFault s .read (inByteAddr s i) = none ∧ accessFault s .write (outByteAddr s i) = none)
    (fault : accessFault s .read (inByteAddr s j) = some f ∨
      accessFault s .read (inByteAddr s j) = none ∧ accessFault s .write (outByteAddr s j) = some f) :
    firstFault s (overlayAccesses s m) = some f := by
  refine firstFault_range_flatMap hj (fun i hi => ?_) ?_
  · obtain ⟨hread, hwrite⟩ := before i hi
    simp [firstFault, hread, hwrite]
  · rcases fault with hread | ⟨hread, hwrite⟩
    · simp [firstFault, hread]
    · simp [firstFault, hread, hwrite]

/-! When LDKN and XORB stop. -/

/-- LDKN stops with the first fault of its 44 reads (R48, R80). -/
theorem exec_ldkn_of_fault {f : Fault} (h : firstFault s (loadAccesses s) = some f) : exec .ldkn s = .fault f := by
  simp only [exec, execLdkn, loadKeyNonce, h]

/-- XORB with a legal byte count is the overlay of so many bytes (R63, R140). -/
theorem exec_xorb_of_legal {m : Byte} (h1 : 1 ≤ m.toNat) (h64 : m.toNat ≤ 64) : exec (.xorb m) s = overlay m.toNat s := by
  simp [exec, execXorb, Instr.wf, Config.blockSize, h1, h64]

/-- The overlay stops with the first fault of its accesses, unless it is refused (R48). -/
theorem overlay_of_fault {m : Nat} {f : Fault} (apart : overlayRefusal s m = none)
    (h : firstFault s (overlayAccesses s m) = some f) : overlay m s = .fault f := by
  simp only [overlay, apart, h]

/-- Settles O20: the faulting byte's place among the ordered accesses of the word makes its fault the first one. -/
theorem rejectedAccessStopsTheWord : Obligations.RejectedAccessStopsTheWord := by
  refine ⟨fun s j f hj before fault => ?_, fun s j f key hj before fault => ?_,
    fun s m j f h1 h64 apart hj before fault => ?_⟩
  · exact exec_ldkn_of_fault (firstFault_append_of_some (firstFault_readsOf hj before fault) _)
  · apply exec_ldkn_of_fault
    rw [loadAccesses, firstFault_append_of_none (firstFault_readsOf_eq_none (len := Config.keySize) key)]
    exact firstFault_readsOf hj before fault
  · rw [exec_xorb_of_legal h1 h64]
    exact overlay_of_fault apart (firstFault_overlayAccesses hj before fault)

/-! Ranges without a meaning (R45 to R47). -/

/-- Two ranges of one length at different addresses that have an address in common overlap partially (R45). -/
theorem overlapsPartially_of_meet {a b len : Nat} (ne : a ≠ b) (hab : a < b + len) (hba : b < a + len) :
    overlapsPartially a b len = true := by
  have pos : 0 < len := by omega
  simp [overlapsPartially, rangesMeet, *]

/-- A partial overlap, of the command's ranges or of the word's own bytes, refuses the overlay (R45, R140; log 8). -/
theorem overlay_of_overlap {m : Nat} (h : overlapsPartially s.desc.inAddr s.desc.outAddr s.desc.inLen = true ∨
    overlapsPartially (inByteAddr s 0) (outByteAddr s 0) m = true) : overlay m s = .refused .inputOutputOverlap := by
  have refusal : overlayRefusal s m = some .inputOutputOverlap := if_pos (by simpa using h)
  simp only [overlay, refusal]

/-- Settles O32: each of the two overlaps is one that the overlay is refused for. -/
theorem xorbRefusesPartialOverlap : Obligations.XorbRefusesPartialOverlap := by
  intro s m h1 h64 ne h
  rw [exec_xorb_of_legal h1 h64]
  apply overlay_of_overlap
  rcases h with ⟨-, hio, hoi⟩ | ⟨hio, hoi⟩
  · exact .inl (overlapsPartially_of_meet ne hio hoi)
  · refine .inr (overlapsPartially_of_meet ?_ ?_ ?_) <;> simp only [inByteAddr, outByteAddr] <;> omega

/-- The ranges that are not legal are refused by name (R45 to R47). -/
theorem rangeRefusal_of_illegal (h : ¬LegalRanges s.params s.desc) : ∃ r, rangeRefusal s = some r :=
  Option.ne_none_iff_exists'.1 (mt rangeRefusal_eq_none.1 h)

/-- A busy engine whose command has illegal ranges has no step (R191; log 7). -/
theorem engineStep_illegal (hb : s.ph ≠ .idle) (h : ¬LegalRanges s.params s.desc) : ∃ r, engineStep s = .refused r := by
  obtain ⟨r, hr⟩ := rangeRefusal_of_illegal h
  exact ⟨r, by simp [engineStep, hb, hr]⟩

/-- START is refused on illegal ranges, or before that for a register that is not written (R182, R183; log 7). -/
theorem startMove_illegal (h : ¬LegalRanges s.params s.desc) : ∃ r, startMove s = .refused r := by
  obtain ⟨r, hr⟩ := rangeRefusal_of_illegal h
  cases hu : firstUnwritten s with
  | some d => exact ⟨.startUnwritten d, by simp [startMove, hu]⟩
  | none => exact ⟨r, by simp [startMove, hu, hr]⟩

/-- A write to CTRL that would start a command with illegal ranges is refused, in a busy engine for being busy (R21, R189). -/
theorem hostWrite_start_illegal {v : Nat} (hv : v % 2 = 1) (h : ¬LegalRanges s.params s.desc) :
    ∃ r, hostWrite .ctrl v s = .refused r := by
  cases hb : s.busy with
  | true => exact ⟨.hostMoveWhileBusy, by simp [hostWrite, hb]⟩
  | false => simpa [hostWrite, hb, hv] using startMove_illegal h

/-- Settles O38: XFORM, a busy engine and START each look at the ranges before anything else of the command. -/
theorem illegalRangesAreRefused : Obligations.IllegalRangesAreRefused := by
  refine ⟨fun s h => execXform_illegal h, fun s alone hb h => ?_, fun s rest v hl hh hv h => ?_⟩
  · rw [step_alone alone]
    exact engineStep_illegal hb h
  · rw [step_host hl hh]
    exact hostWrite_start_illegal (s := { s with host := rest }) hv h

/-! The canonical form of the memory (R40; log 2). -/

/-- The overlay keeps the memory's canonical form. -/
theorem overlay_memWf {m : Nat} (hw : Memory.wf s.mem) (h : overlay m s = .next t) : Memory.wf t.mem := by
  obtain ⟨-, -, rfl⟩ := overlay_eq_next.1 h
  exact overlayMem_wf hw m

/-- One block of XFORM writes memory by its overlay only (R116). -/
theorem commandBlock_memWf (hw : Memory.wf s.mem) (h : commandBlock s = .next t) : Memory.wf t.mem := by
  obtain ⟨u, hu, ht⟩ := andThen_eq_next.1 h
  obtain rfl := Host.Outcome.next.inj ht
  have hw' : Memory.wf (transformBlock (initialise s)).mem := by simpa using hw
  show Memory.wf u.mem
  exact overlay_memWf hw' hu

/-- XFORM's loop keeps the canonical form: induction on the blocks that are left. -/
theorem commandBlocks_memWf {blocks : Nat} (hw : Memory.wf s.mem) (h : commandBlocks blocks s = .next t) :
    Memory.wf t.mem := by
  induction blocks generalizing s with
  | zero => exact Host.Outcome.next.inj h ▸ hw
  | succ blocks ih =>
    obtain ⟨u, hu, ht⟩ := andThen_eq_next.1 h
    exact ih (commandBlock_memWf hw hu) ht

/-- So does its body: LDKN and WIPE do not write memory (R116). -/
theorem commandBody_memWf (hw : Memory.wf s.mem) (h : commandBody s = .next t) : Memory.wf t.mem := by
  obtain ⟨u, hu, ht⟩ := andThen_eq_next.1 h
  obtain rfl := Host.Outcome.next.inj ht
  show Memory.wf u.mem
  split at hu
  · exact Host.Outcome.next.inj hu ▸ hw
  · obtain ⟨v, hv, hu⟩ := andThen_eq_next.1 hu
    obtain ⟨-, rfl⟩ := loadKeyNonce_eq_next.1 hv
    exact commandBlocks_memWf (s := latchWords s) hw hu

/-- XFORM keeps the canonical form, whether it traps or runs the whole command (R116). -/
theorem runCommand_memWf (hw : Memory.wf s.mem) (h : runCommand s = .next t) : Memory.wf t.mem := by
  simp only [runCommand] at h
  split at h
  · exact Host.Outcome.next.inj h ▸ hw
  · split at h
    · exact Host.Outcome.next.inj h ▸ hw
    · exact commandBody_memWf (s := setBlockCount (beginCommand s)) hw h

/-- Every control word keeps the canonical form (R40). -/
theorem exec_memWf {i : Instr} (hw : Memory.wf s.mem) (h : exec i s = .next t) : Memory.wf t.mem := by
  by_cases hi : i = .xform
  · subst hi
    simp only [exec, execXform] at h
    split at h
    · cases h
    · exact runCommand_memWf hw h
  · obtain hm | ⟨m, hm⟩ := (exec_effect h).mem_cases hi
    · rwa [hm]
    · exact hm ▸ overlayMem_wf hw m

/-- A listing's step keeps the canonical form (R72). -/
theorem listingStep_memWf (hw : Memory.wf s.mem) (h : listingStep s = .next t) : Memory.wf t.mem := by
  unfold listingStep at h
  split at h
  · cases h
  · split at h
    · exact Host.Outcome.next.inj h ▸ hw
    · split at h
      · refine exec_memWf ?_ h
        exact hw
      · cases h

/-- A descriptor write does not touch memory (R20). -/
@[simp] theorem descriptorWrite_mem (r : DescReg) (v : Nat) (s : State) : (descriptorWrite r v s).mem = s.mem := by
  unfold descriptorWrite
  simp only
  split <;> rfl

/-- A register write does not touch memory: START begins a command and writes nothing there (R110). -/
theorem hostWrite_mem {r : HostReg} {v : Nat} (h : hostWrite r v s = .next t) : t.mem = s.mem := by
  obtain ⟨-, ⟨d, rfl⟩ | hstart | rfl⟩ := hostWrite_eq_next h
  · exact descriptorWrite_mem d v s
  · obtain ⟨-, -, rfl⟩ := startMove_eq_next.1 hstart
    rfl
  · rfl

/-- A register read does not touch memory (R25). -/
theorem hostRead_mem {r : HostReg} (h : hostRead r s = .next t) : t.mem = s.mem := by
  obtain ⟨v, rfl⟩ | ⟨width, rfl⟩ := hostRead_eq_next h <;> rfl

/-- A reset in the middle of an XORB leaves what the overlay of its first bytes has written (R181; log 14). -/
theorem resetMove_memWf {k : Nat} (hw : Memory.wf s.mem) (h : resetMove k s = .next t) : Memory.wf t.mem := by
  unfold resetMove at h
  split at h
  · simp only at h
    split at h
    · exact Host.Outcome.next.inj h ▸ hw
    · obtain ⟨u, hu, ht⟩ := andThen_eq_next.1 h
      obtain rfl := Host.Outcome.next.inj ht
      show Memory.wf u.mem
      exact overlay_memWf hw hu
  all_goals exact Host.Outcome.next.inj h ▸ hw

/-- The end of a wrapper's call writes memory only in the engine's turn (R70). -/
theorem finishCall_memWf {onOk : Word → CallReturn} {rest : List HostMove} (hw : Memory.wf s.mem)
    (h : finishCall onOk rest s = .next t) : Memory.wf t.mem := by
  unfold finishCall at h
  split at h
  · exact engineStep_memWf hw h
  · split at h
    all_goals exact Host.Outcome.next.inj h ▸ hw

/-- Every host move keeps the canonical form (R183). -/
theorem hostStep_memWf {move : HostMove} {rest : List HostMove} (hw : Memory.wf s.mem)
    (h : hostStep move rest s = .next t) : Memory.wf t.mem := by
  have hw' : Memory.wf { s with host := rest }.mem := hw
  cases move with
  | write r v => exact hostWrite_mem h ▸ hw'
  | read r => exact hostRead_mem h ▸ hw'
  | memWrite a v => exact hostAccess_eq_next h ▸ memStore_wf a v hw
  | memRead a => exact hostAccess_eq_next h ▸ hw'
  | reset k => exact resetMove_memWf hw' h
  | wait => exact engineStep_memWf hw' h
  | await =>
    simp only [hostStep] at h
    split at h
    · exact engineStep_memWf hw h
    · exact Host.Outcome.next.inj h ▸ hw'
  | returnCounter => exact finishCall_memWf hw h
  | returnVoid => exact finishCall_memWf hw h
  | fail e => exact Host.Outcome.next.inj h ▸ hw'

/-- Settles O46: whichever of the three has the turn keeps the form. -/
theorem stepKeepsMemoryCanonical : Obligations.StepKeepsMemoryCanonical := by
  intro s t hw h
  unfold step turn at h
  split at h
  · exact listingStep_memWf hw h
  · split at h
    · exact hostStep_memWf hw h
    · exact engineStep_memWf hw h

/-! The bytes a running command writes (R41, R56). -/

/-- Only P_XOR issues XORB, with R123's byte count (R115). -/
theorem issue_xorb {m : Byte} (h : issue s = some (.xorb m)) : s.ph = .xor ∧ m.toNat = blockBytes s := by
  cases hp : s.ph with
  | xor =>
    simp only [issue, hp, issuedOverlay] at h
    split at h
    · rename_i legal
      obtain ⟨-, -, (hle : blockBytes s ≤ 64)⟩ := legal
      obtain rfl : BitVec.ofNat 8 (blockBytes s) = m := by simpa using h
      exact ⟨rfl, by rw [BitVec.toNat_ofNat]; omega⟩
    · cases h
  | _ => simp [issue, hp, tupleInstr] at h

/-- The bytes of the current block lie within the command's length (R112, R123). -/
theorem blockBytes_within (h : InBlock s) : 64 * s.blk.toNat + blockBytes s ≤ s.desc.inLen := by
  have left := h.left
  have blocks := h.blocks
  unfold blockBytes Config.blockSize
  split <;> omega

/-- A step of the engine that changes memory is an XORB of the current block's bytes; every other step leaves memory. -/
theorem engineStep_mem_cases (h : engineStep s = .next t) :
    t.mem = s.mem ∨ s.ph = .xor ∧ t.mem = overlayMem s (blockBytes s) := by
  obtain ⟨-, rfl⟩ | ⟨i, u, hi, hu, rfl⟩ := engineStep_effect h
  · exact .inl rfl
  · rw [advance_mem]
    cases hu with
    | xorb m =>
      obtain ⟨ph, hm⟩ := issue_xorb hi
      exact .inr ⟨ph, by rw [hm]⟩
    | xform => exact absurd hi issue_ne_xform
    | _ => simp

/-- Settles O49: memory changes in P_XOR only, where the block's bytes lie in the output range. -/
theorem commandWritesOnlyItsOutput : Obligations.CommandWritesOnlyItsOutput := by
  intro s t a inv h outside
  obtain hm | ⟨ph, hm⟩ := engineStep_mem_cases h
  · rw [hm]
  · have within := blockBytes_within (inv.inBlock (by rw [ph]; rfl))
    rw [hm]
    refine overlayMem_other fun j hj => ?_
    simp only [outByteAddr, Config.blockSize]
    rcases outside with hp | below | above
    · exact absurd ph hp
    · omega
    · omega

end Sys2Proof.Machine
end

/-! ### The encoding: a word decodes to `i` exactly when `i` is well formed and the word is its encoding -/
section
namespace Sys2Proof.Machine

theorem opField_toNat (w : Word) : (opField w).toNat = w.toNat / 2 ^ 24 := by
  have := w.isLt
  rw [opField, BitVec.extractLsb'_toNat, Nat.shiftRight_eq_div_pow]
  omega

/-- A bit field is zero exactly when its number is. -/
theorem extractLsb'_eq_zero {w : Word} {start len : Nat} :
    w.extractLsb' start len = 0 ↔ w.toNat / 2 ^ start % 2 ^ len = 0 := by
  rw [← BitVec.toNat_inj, BitVec.extractLsb'_toNat, Nat.shiftRight_eq_div_pow]
  exact Iff.rfl

/-! What each format reads, the must-be-zero fields as numbers (R61 to R63). -/

theorem decodeZ_eq_ok {w : Word} {i j : Instr} : decodeZ w i = .ok j ↔ w.toNat % 2 ^ 24 = 0 ∧ i = j := by
  have zero : w.extractLsb' 0 24 = 0 ↔ w.toNat % 2 ^ 24 = 0 := by
    rw [extractLsb'_eq_zero, Nat.pow_zero, Nat.div_one]
  rw [← zero, decodeZ]
  by_cases h : w.extractLsb' 0 24 = 0
  · rw [if_pos h, Except.ok.injEq]
    exact (and_iff_right h).symm
  · rw [if_neg h]
    exact ⟨nofun, fun hz => absurd hz.1 h⟩

/-- The shape formats Q and M share: a must-be-zero field, then an operand check, which is well-formedness. -/
theorem checkedOperand_eq_ok {zero legal : Prop} [Decidable zero] [Decidable legal] {e e' : DecodeError} {i j : Instr}
    (wf : legal ↔ i.wf = true) :
    (if ¬zero then Except.error e else if legal then .ok i else .error e') = .ok j ↔ zero ∧ j.wf = true ∧ i = j := by
  by_cases hz : zero
  · by_cases hl : legal
    · rw [if_neg (not_not.2 hz), if_pos hl, Except.ok.injEq]
      exact ⟨fun h => ⟨hz, h ▸ wf.1 hl, h⟩, fun h => h.2.2⟩
    · rw [if_neg (not_not.2 hz), if_neg hl]
      exact ⟨nofun, fun ⟨_, hw, h⟩ => absurd (wf.2 (h ▸ hw)) hl⟩
  · rw [if_pos hz]
    exact ⟨nofun, fun h => absurd h.1 hz⟩

theorem decodeQ_eq_ok {w : Word} {i : Instr} : decodeQ w = .ok i ↔
    w.toNat / 2 ^ 16 % 2 ^ 8 = 0 ∧ i.wf = true ∧
      .qr (w.extractLsb' 12 4) (w.extractLsb' 8 4) (w.extractLsb' 4 4) (w.extractLsb' 0 4) = i := by
  rw [← extractLsb'_eq_zero]
  exact checkedOperand_eq_ok Iff.rfl

theorem decodeM_eq_ok {w : Word} {i : Instr} : decodeM w = .ok i ↔
    w.toNat / 2 ^ 8 % 2 ^ 16 = 0 ∧ i.wf = true ∧ .xorb (w.extractLsb' 0 8) = i := by
  rw [← extractLsb'_eq_zero]
  exact checkedOperand_eq_ok (by simp [Instr.wf])

/-! The encoder on numbers: the opcode above the operand field (R60). -/

/-- `or_shiftLeft_eq_add` with the high bits written first. -/
theorem shiftLeft_or_eq_add {i lo : Nat} (h : lo < 2 ^ i) (hi : Nat) : hi <<< i ||| lo = lo + 2 ^ i * hi := by
  rw [Nat.or_comm, or_shiftLeft_eq_add h]

/-- Format Q's operand field: four index digits in base 16 (R62). -/
theorem operandField_qr_toNat (a b c d : BitVec 4) : (Instr.qr a b c d).operandField.toNat =
    d.toNat + 2 ^ 4 * c.toNat + 2 ^ 8 * b.toNat + 2 ^ 12 * a.toNat := by
  have := a.isLt; have := b.isLt; have := c.isLt; have := d.isLt
  have placed (x : BitVec 4) {k : Nat} (hk : k ≤ 12) : (x.setWidth 32 <<< k).toNat = x.toNat <<< k := by
    have fits : x.toNat * 2 ^ k < 2 ^ 4 * 2 ^ 12 :=
      Nat.mul_lt_mul_of_lt_of_le x.isLt (Nat.pow_le_pow_right (by decide) hk) (by decide)
    rw [BitVec.toNat_shiftLeft, BitVec.toNat_setWidth_of_le (by decide), Nat.shiftLeft_eq]
    exact Nat.mod_eq_of_lt (by omega)
  rw [Instr.operandField, BitVec.toNat_or, BitVec.toNat_or, BitVec.toNat_or, placed a (by decide), placed b (by decide),
    placed c (by decide), BitVec.toNat_setWidth_of_le (by decide), Nat.or_assoc, Nat.or_assoc,
    shiftLeft_or_eq_add (i := 4) (by omega), shiftLeft_or_eq_add (i := 8) (by omega),
    shiftLeft_or_eq_add (i := 12) (by omega)]

/-- Format M's operand field is the byte count (R63). -/
theorem operandField_xorb_toNat (m : Byte) : (Instr.xorb m).operandField.toNat = m.toNat :=
  BitVec.toNat_setWidth_of_le (by decide)

theorem operandField_lt (i : Instr) : i.operandField.toNat < 2 ^ 24 := by
  cases i with
  | qr a b c d =>
    rw [operandField_qr_toNat]
    omega
  | xorb m =>
    rw [operandField_xorb_toNat]
    omega
  | _ => decide

theorem encode_toNat (i : Instr) : (encode i).toNat = i.operandField.toNat + 2 ^ 24 * i.op.toNat := by
  rw [encode, BitVec.toNat_or, toNat_setWidth_shiftLeft _ (by decide), shiftLeft_or_eq_add (operandField_lt i)]

/-- A word with the opcode and the operand field of an instruction is its encoding. -/
theorem encode_eq_of_fields {w : Word} {i : Instr} (op : (opField w).toNat = i.op.toNat)
    (operands : i.operandField.toNat = w.toNat % 2 ^ 24) : encode i = w := by
  rw [opField_toNat] at op
  apply BitVec.eq_of_toNat_eq
  rw [encode_toNat]
  omega

/-- A word with the opcode of a row without operands, and the rest zero, is that row's word. -/
theorem encode_eq_of_decodeZ {w : Word} {i j : Instr} (op : (opField w).toNat = i.op.toNat) (noOperand : i.operandField = 0)
    (wf : i.wf = true) (h : decodeZ w i = .ok j) : j.wf = true ∧ encode j = w := by
  obtain ⟨zero, rfl⟩ := decodeZ_eq_ok.1 h
  exact ⟨wf, encode_eq_of_fields op (by rw [noOperand, zero]; rfl)⟩

theorem encode_eq_of_decodeQ {w : Word} {i : Instr} (op : (opField w).toNat = 0x20) (h : decodeQ w = .ok i) :
    i.wf = true ∧ encode i = w := by
  obtain ⟨zero, wf, rfl⟩ := decodeQ_eq_ok.1 h
  refine ⟨wf, encode_eq_of_fields op ?_⟩
  simp only [operandField_qr_toNat, BitVec.extractLsb'_toNat, Nat.shiftRight_eq_div_pow]
  omega

theorem encode_eq_of_decodeM {w : Word} {i : Instr} (op : (opField w).toNat = 0x30) (h : decodeM w = .ok i) :
    i.wf = true ∧ encode i = w := by
  obtain ⟨zero, wf, rfl⟩ := decodeM_eq_ok.1 h
  refine ⟨wf, encode_eq_of_fields op ?_⟩
  rw [operandField_xorb_toNat, BitVec.extractLsb'_toNat, Nat.shiftRight_eq_div_pow]
  omega

/-- What the decoder reads is well formed and is the instruction of the word: one case for each row of R64. -/
theorem encode_of_decode {w : Word} {i : Instr} (h : decode w = .ok i) : i.wf = true ∧ encode i = w := by
  unfold decode at h
  split at h
  case h_5 op => exact encode_eq_of_decodeQ op h
  case h_12 op => exact encode_eq_of_decodeM op h
  case h_17 => cases h
  all_goals exact encode_eq_of_decodeZ ‹_› rfl rfl h

/-- Well-formed QR words are the eight of R71. -/
theorem wf_qr {a b c d : BitVec 4} : (Instr.qr a b c d).wf = true ↔ (a, b, c, d) ∈ Config.tuples := by
  rw [Instr.wf, List.contains_iff_mem]

/-- Well-formed XORB words have 1 to 64 bytes (R63). -/
theorem wf_xorb {m : Byte} : (Instr.xorb m).wf = true ↔ 1 ≤ m.toNat ∧ m.toNat ≤ 64 := by
  rw [Instr.wf, Bool.and_eq_true, decide_eq_true_iff, decide_eq_true_iff, Config.blockSize]

theorem opField_encode (i : Instr) : opField (encode i) = i.op := by
  have := operandField_lt i
  apply BitVec.eq_of_toNat_eq
  rw [opField_toNat, encode_toNat]
  omega

/-- The decoder finds the operands of a QR word in their places. -/
theorem decodeQ_encode {a b c d : BitVec 4} (wf : (Instr.qr a b c d).wf = true) :
    decodeQ (encode (.qr a b c d)) = .ok (.qr a b c d) := by
  have word := encode_toNat (.qr a b c d)
  rw [operandField_qr_toNat] at word
  have field (x : BitVec 4) (k : Nat) (h : (encode (.qr a b c d)).toNat / 2 ^ k % 2 ^ 4 = x.toNat) :
      (encode (.qr a b c d)).extractLsb' k 4 = x := by
    rw [← BitVec.toNat_inj, BitVec.extractLsb'_toNat, Nat.shiftRight_eq_div_pow, h]
  have := a.isLt; have := b.isLt; have := c.isLt; have := d.isLt
  refine decodeQ_eq_ok.2 ⟨by rw [word]; omega, wf, ?_⟩
  rw [field a 12 (by rw [word]; omega), field b 8 (by rw [word]; omega), field c 4 (by rw [word]; omega),
    field d 0 (by rw [word]; omega)]

/-- The decoder finds the byte count of an XORB word in its place. -/
theorem decodeM_encode {m : Byte} (wf : (Instr.xorb m).wf = true) : decodeM (encode (.xorb m)) = .ok (.xorb m) := by
  have word := encode_toNat (.xorb m)
  rw [operandField_xorb_toNat] at word
  have := m.isLt
  have count : (encode (.xorb m)).extractLsb' 0 8 = m := by
    rw [← BitVec.toNat_inj, BitVec.extractLsb'_toNat, Nat.shiftRight_zero, word]
    omega
  exact decodeM_eq_ok.2 ⟨by rw [word]; omega, wf, by rw [count]⟩

/-- The decoder reads every well-formed instruction back; a row without operands has one word. -/
theorem decode_encode {i : Instr} (wf : i.wf = true) : decode (encode i) = .ok i := by
  cases i with
  | qr a b c d =>
    rw [decode, opField_encode]
    exact decodeQ_encode wf
  | xorb m =>
    rw [decode, opField_encode]
    exact decodeM_encode wf
  | _ => rfl

/-- R60 to R65 in one line. -/
theorem decode_eq_ok {w : Word} {i : Instr} : decode w = .ok i ↔ i.wf = true ∧ encode i = w :=
  ⟨encode_of_decode, fun ⟨wf, hw⟩ => hw ▸ decode_encode wf⟩

/-- Settles O3, by `decode_encode`. -/
theorem decodeOfEncodeIsTheInstruction : Obligations.DecodeOfEncodeIsTheInstruction :=
  fun _ wf => decode_encode wf

/-- Settles O4, by `encode_of_decode`. -/
theorem encodeOfDecodeIsTheWord : Obligations.EncodeOfDecodeIsTheWord :=
  fun _ _ h => encode_of_decode h

/-- Settles O5: the decoder computes each word V30 writes out. -/
theorem wordsOfTheSpecDecode : Obligations.WordsOfTheSpecDecode :=
  ⟨rfl, rfl, rfl, rfl, rfl, rfl, rfl, rfl, rfl, rfl, rfl, rfl, rfl, rfl, rfl, rfl, rfl, rfl, rfl,
    fun w hw => by fin_cases hw <;> rfl⟩

/-- A word is legal exactly when it encodes a well-formed instruction. -/
theorem isLegalWord_iff {w : Word} : isLegalWord w = true ↔ ∃ i : Instr, i.wf = true ∧ encode i = w := by
  simp only [← decode_eq_ok, isLegalWord]
  cases decode w <;> simp

theorem isLegalWord_encode {i : Instr} (wf : i.wf = true) : isLegalWord (encode i) = true :=
  isLegalWord_iff.2 ⟨i, wf, rfl⟩

theorem isLegalWord_of_decode {w : Word} {i : Instr} (h : decode w = .ok i) : isLegalWord w = true :=
  isLegalWord_iff.2 ⟨i, decode_eq_ok.1 h⟩

/-- The words of format Z are those with a zero operand field and one of fourteen opcodes (R64). -/
theorem isLegalWord_formatZ {w : Word} (zero : w.toNat % 2 ^ 24 = 0)
    (op : w.toNat / 2 ^ 24 ∈ [0x01, 0x02, 0x03, 0x10, 0x21, 0x22, 0x23, 0x28, 0x29, 0x2F, 0x31, 0x40, 0x41, 0x80]) :
    isLegalWord w = true := by
  have rows : ∀ n ∈ [0x01, 0x02, 0x03, 0x10, 0x21, 0x22, 0x23, 0x28, 0x29, 0x2F, 0x31, 0x40, 0x41, 0x80],
      isLegalWord (BitVec.ofNat 32 (n * 2 ^ 24)) = true := by decide
  have word : BitVec.ofNat 32 (w.toNat / 2 ^ 24 * 2 ^ 24) = w := by
    apply BitVec.eq_of_toNat_eq
    rw [BitVec.toNat_ofNat]
    omega
  exact word ▸ rows _ op

/-- The words of the eight tuples (R71). -/
theorem qrWords : Config.tuples.map (fun t => (encode (.qr t.1 t.2.1 t.2.2.1 t.2.2.2)).toNat) =
    [0x2000048C, 0x2000159D, 0x200026AE, 0x200037BF, 0x200005AF, 0x200016BC, 0x2000278D, 0x2000349E] := by
  decide

/-- Settles O6: a legal word is the word of a row; each row's words are read off its encoding, and the other way round. -/
theorem legalWordsAreTheSixteenRows : Obligations.LegalWordsAreTheSixteenRows := by
  intro w
  rw [← qrWords, List.mem_map]
  constructor
  · intro legal
    obtain ⟨i, wf, rfl⟩ := isLegalWord_iff.1 legal
    cases i with
    | qr a b c d => exact .inr (.inl ⟨_, wf_qr.1 wf, rfl⟩)
    | xorb m =>
      have word := encode_toNat (.xorb m)
      rw [operandField_xorb_toNat, show (Instr.xorb m).op.toNat = 0x30 from rfl] at word
      obtain ⟨low, high⟩ := wf_xorb.1 wf
      exact .inr (.inr (by omega))
    | _ => exact .inl (by decide)
  · rintro (⟨zero, op⟩ | ⟨⟨a, b, c, d⟩, table, word⟩ | ⟨op, low, high⟩)
    · exact isLegalWord_formatZ zero op
    · exact isLegalWord_iff.2 ⟨.qr a b c d, wf_qr.2 table, BitVec.eq_of_toNat_eq word⟩
    · let m : Byte := BitVec.ofNat 8 w.toNat
      have count : m.toNat = w.toNat % 2 ^ 8 := BitVec.toNat_ofNat ..
      refine isLegalWord_iff.2 ⟨.xorb m, wf_xorb.2 (by omega), encode_eq_of_fields ?_ ?_⟩
      · rw [opField_toNat, show (Instr.xorb m).op.toNat = 0x30 from rfl]
        omega
      · rw [operandField_xorb_toNat]
        omega

end Sys2Proof.Machine
end

/-! ### What a step runs: operands without meaning, issued words, and listings -/
section
namespace Sys2Proof.Machine

/-- No word decodes to an ill-formed instruction (R65). -/
theorem decode_ne_of_not_wf {i : Instr} (h : i.wf = false) (w : Word) : decode w ≠ .ok i := fun hd =>
  Bool.false_ne_true (h.symm.trans (decode_eq_ok.1 hd).1)

theorem xorb_not_wf {m : Byte} (h : m.toNat = 0 ∨ 64 < m.toNat) : (Instr.xorb m).wf = false := by
  rw [← Bool.not_eq_true, wf_xorb]
  omega

theorem legalRounds_eq_false {r : Word} : legalRounds r = false ↔ ¬(r = 8 ∨ r = 12 ∨ r = 20) := by
  rw [← legalRounds_eq_true, Bool.not_eq_true]

/-- Settles O24: QR and XORB check well-formedness, which every decoded word has; BLOCK checks ROUNDS, then X = S. -/
theorem illegalOperandsHaveNoMeaning : Obligations.IllegalOperandsHaveNoMeaning := by
  refine ⟨fun s a b c d h => ⟨?_, decode_ne_of_not_wf h⟩, fun s m h => ⟨?_, decode_ne_of_not_wf (xorb_not_wf h)⟩,
    fun s h => ?_, fun s h hx => ?_⟩
  · simp [exec, execQr, h]
  · simp [exec, execXorb, xorb_not_wf h]
  · simp [exec, execBlock, legalRounds_eq_false.2 h]
  · simp [exec, execBlock, legalRounds_eq_true.2 h, hx]

/-- The eight QR words the sequencer issues are well formed (R71). -/
theorem tupleInstr_wf (qi : BitVec 3) : (tupleInstr qi).wf = true := by
  revert qi
  decide

/-- Where P_XOR issues a word, its byte count is a legal operand (R63, R123). -/
theorem issuedOverlay_legal {s : State} {i : Instr} (h : issuedOverlay s = some i) :
    i.wf = true ∧ i.isPrimitive = true := by
  simp only [issuedOverlay] at h
  split at h
  · rename_i legal
    obtain ⟨-, low, (high : blockBytes s ≤ 64)⟩ := legal
    obtain rfl := Option.some.inj h
    have count : (BitVec.ofNat 8 (blockBytes s)).toNat = blockBytes s := by
      rw [BitVec.toNat_ofNat]
      omega
    exact ⟨wf_xorb.2 (by omega), rfl⟩
  · cases h

/-- The sequencer issues well-formed primitives, in each phase the word of R115's table. -/
theorem issue_legal {s : State} {i : Instr} (h : issue s = some i) : i.wf = true ∧ i.isPrimitive = true := by
  unfold issue at h
  split at h
  case h_1 => cases h
  case h_6 => exact Option.some.inj h ▸ ⟨tupleInstr_wf s.qi, rfl⟩
  case h_9 => exact issuedOverlay_legal h
  all_goals exact Option.some.inj h ▸ ⟨rfl, rfl⟩

/-- Settles O11, by `issue_legal`. -/
theorem issuedWordsAreLegalPrimitives : Obligations.IssuedWordsAreLegalPrimitives := by
  intro s i h
  obtain ⟨wf, primitive⟩ := issue_legal h
  exact ⟨wf, primitive, by rw [issuedWord, h, Option.map_some]⟩

/-! Listings (R72). -/

/-- A listing that waits is the step (R72; log 6). -/
theorem step_listing {s : State} (h : s.listing ≠ []) : step s = listingStep s := by
  unfold step turn
  split
  · rfl
  · contradiction

/-- A step on a listing of legal words is the meaning of its first word on the state with the rest of the listing (R72). -/
theorem step_listing_cons {s : State} {w : Word} {rest : List Word} {i : Instr} (hl : s.listing = w :: rest)
    (legal : ∀ v ∈ w :: rest, isLegalWord v = true) (hd : decode w = .ok i) :
    step s = exec i { s with listing := rest } := by
  have none : (w :: rest).find? (fun v => !isLegalWord v) = none := by
    simpa [List.find?_eq_none] using legal
  rw [step_listing (by simp [hl])]
  simp only [listingStep, hl, none, hd]

/-- Settles O8: a placed word is a listing of one legal word. -/
theorem listingStepRunsTheDecodedWord : Obligations.ListingStepRunsTheDecodedWord := by
  refine ⟨fun s w rest i hl legal hd => step_listing_cons hl legal hd, fun s nbits w i h => ?_⟩
  have hd : decode (BitVec.ofNat 32 (w % 2 ^ nbits)) = .ok i := by
    unfold decodeTableWord at h
    split at h
    · rename_i hj
      rw [hj, Option.some.inj h]
    · cases h
  exact step_listing_cons (s := s.withFetchWord nbits w) (placeWord_listing s nbits w)
    (by simpa using isLegalWord_of_decode hd) hd

/-- Settles O9: the search for an illegal word finds one, and the step names it. -/
theorem listingWithAnIllegalWordIsRefused : Obligations.ListingWithAnIllegalWordIsRefused := by
  intro s w hw illegal
  obtain ⟨v, hv⟩ : ∃ v, s.listing.find? (fun v => !isLegalWord v) = some v :=
    Option.isSome_iff_exists.1 (List.find?_isSome.2 ⟨w, hw, by simp [illegal]⟩)
  refine ⟨v, List.mem_of_find?_eq_some hv, by simpa using List.find?_some hv, ?_⟩
  rw [step_listing (List.ne_nil_of_mem hw)]
  simp only [listingStep, hv]

/-! Runs of several steps. -/

/-- `k` steps of the machine, each on what the one before it left. -/
def steps : Nat → State → Host.Outcome State Fault Refusal
  | 0, s => .next s
  | k + 1, s => andThen (step s) (steps k)

/-- The host's run is `steps`. -/
theorem run_core (k : Nat) (s : State) : Host.Core.run core k s = steps k s := by
  induction k generalizing s with
  | zero => rfl
  | succ k ih =>
    simp only [Host.Core.run, steps, core]
    cases step s with
    | next u => exact ih u
    | fault r => rfl
    | refused r => rfl

/-- A run is a run and then the rest of it. -/
theorem steps_add (j k : Nat) (s : State) : steps (j + k) s = andThen (steps j s) (steps k) := by
  induction j generalizing s with
  | zero => rw [Nat.zero_add, steps, andThen_next]
  | succ j ih => rw [Nat.add_right_comm, steps, steps, andThen_assoc, funext ih]

/-- The state with the words of `is` as its listing (R72). -/
def placeInstrs (is : List Instr) (s : State) : State := { s with listing := is.map encode }

theorem placeInstrs_mapX (is : List Instr) (f : Vector Word 16 → Vector Word 16) (s : State) :
    (placeInstrs is s).mapX f = placeInstrs is (s.mapX f) := rfl

/-- A listing of well-formed instructions runs its first one and goes on with the others (R72). -/
theorem steps_placeInstrs_cons {i : Instr} {is : List Instr} (wf : ∀ j ∈ i :: is, j.wf = true) (k : Nat) (s : State) :
    steps (k + 1) (placeInstrs (i :: is) s) = andThen (exec i (placeInstrs is s)) (steps k) := by
  have legal : ∀ w ∈ (i :: is).map encode, isLegalWord w = true := by
    simpa only [List.forall_mem_map] using fun j hj => isLegalWord_encode (wf j hj)
  rw [steps, step_listing_cons (s := placeInstrs (i :: is) s) (List.map_cons ..) legal
    (decode_encode (wf i List.mem_cons_self)), placeInstrs, placeInstrs]

/-! BLOCK as a listing (R69, R97). -/

/-- The QR word of a tuple (R71). -/
def qrInstr (t : BitVec 4 × BitVec 4 × BitVec 4 × BitVec 4) : Instr := .qr t.1 t.2.1 t.2.2.1 t.2.2.2

/-- The quarter-round of a tuple (R71, R90). -/
def quarterRoundAt (t : BitVec 4 × BitVec 4 × BitVec 4 × BitVec 4) (x : Vector Word 16) : Vector Word 16 :=
  quarterRound (wordIndex t.1) (wordIndex t.2.1) (wordIndex t.2.2.1) (wordIndex t.2.2.2) x

/-- A double-round is the eight quarter-rounds in table order (R71, R93). -/
theorem doubleRound_eq_foldl (x : Vector Word 16) :
    doubleRound x = Config.tuples.foldl (fun x t => quarterRoundAt t x) x := rfl

theorem exec_qrInstr {t : BitVec 4 × BitVec 4 × BitVec 4 × BitVec 4} (table : t ∈ Config.tuples) (s : State) :
    exec (qrInstr t) s = .next (s.mapX (quarterRoundAt t)) :=
  if_pos (wf_qr.2 table)

/-- BLOCK's expansion (R69): double-rounds, FFADD, SER. -/
def blockWords : Nat → List Instr
  | 0 => [.ffadd, .ser]
  | r + 1 => Config.tuples.map qrInstr ++ blockWords r

theorem blockWords_wf (r : Nat) : ∀ i ∈ blockWords r, i.wf = true := by
  induction r with
  | zero => decide
  | succ r ih =>
    have rounds : ∀ i ∈ Config.tuples.map qrInstr, i.wf = true := by decide
    exact fun i hi => (List.mem_append.1 hi).elim (rounds i) (ih i)

/-- The expansion's words, written out (R71). -/
theorem blockWords_encode (r : Nat) : (blockWords r).map encode = (List.replicate r
    [0x2000048C, 0x2000159D, 0x200026AE, 0x200037BF, 0x200005AF, 0x200016BC, 0x2000278D, 0x2000349E]).flatten
      ++ [0x28000000, 0x29000000] := by
  induction r with
  | zero => rfl
  | succ r ih =>
    rw [blockWords, List.map_append, ih, List.replicate_succ, List.flatten_cons, List.append_assoc]
    rfl

theorem mapX_mapX (s : State) (f g : Vector Word 16 → Vector Word 16) :
    (s.mapX f).mapX g = s.mapX (fun x => g (f x)) := rfl

/-- Quarter-rounds at the head of a listing change X, one after another. -/
theorem steps_quarterRounds {ts : List (BitVec 4 × BitVec 4 × BitVec 4 × BitVec 4)} {is : List Instr}
    (table : ∀ t ∈ ts, t ∈ Config.tuples) (wf : ∀ i ∈ is, i.wf = true) (k : Nat) (s : State) :
    steps (ts.length + k) (placeInstrs (ts.map qrInstr ++ is) s) =
      steps k (placeInstrs is (s.mapX fun x => ts.foldl (fun x t => quarterRoundAt t x) x)) := by
  induction ts generalizing s with
  | nil => rw [List.length_nil, Nat.zero_add]; rfl
  | cons t ts ih =>
    have here : t ∈ Config.tuples := table t List.mem_cons_self
    have legal : ∀ i ∈ (t :: ts).map qrInstr ++ is, i.wf = true := by
      intro i hi
      obtain hi | hi := List.mem_append.1 hi
      · obtain ⟨u, hu, rfl⟩ := List.mem_map.1 hi
        exact wf_qr.2 (table u hu)
      · exact wf i hi
    rw [List.map_cons, List.cons_append] at legal ⊢
    rw [List.length_cons, Nat.add_right_comm, steps_placeInstrs_cons legal, exec_qrInstr here, andThen_next,
      placeInstrs_mapX, ih fun u hu => table u (List.mem_cons_of_mem t hu), mapX_mapX]
    simp only [List.foldl_cons]

/-- The expansion of BLOCK, run as a listing, leaves what BLOCK's operation leaves (R69, R94). -/
theorem steps_blockWords (r : Nat) (s : State) : steps (8 * r + 2) (placeInstrs (blockWords r) s) =
    .next (placeInstrs [] (serialiseX (addSaved (s.mapX (doubleRounds r))))) := by
  induction r generalizing s with
  | zero =>
    have ffadd : exec .ffadd (placeInstrs [.ser] s) = .next (placeInstrs [.ser] (addSaved s)) := rfl
    have ser : exec .ser (placeInstrs [] (addSaved s)) = .next (placeInstrs [] (serialiseX (addSaved s))) := rfl
    rw [blockWords, steps_placeInstrs_cons (blockWords_wf 0), ffadd, andThen_next, steps_placeInstrs_cons (by decide), ser,
      andThen_next, steps]
    simp only [doubleRounds, State.mapX]
  | succ r ih =>
    have round : Config.tuples.length = 8 := rfl
    rw [show 8 * (r + 1) + 2 = Config.tuples.length + (8 * r + 2) by omega, blockWords, steps_quarterRounds (fun _ => id)
      (blockWords_wf r), ih, mapX_mapX]
    simp only [← doubleRound_eq_foldl, doubleRounds]

/-- Settles O29: BLOCK's operation is the run of its expansion, `ROUNDS / 2` double-rounds long. -/
theorem blockIsItsExpansion : Obligations.BlockIsItsExpansion := by
  intro s rounds initialised
  have frame : transformBlock s = { s with x := (transformBlock s).x, ks := (transformBlock s).ks } := by
    rw [transformBlock, serialiseX, addSaved, State.mapX, State.mapX]
  have words : 4 * s.desc.rounds.toNat + 2 = 8 * (s.desc.rounds.toNat / 2) + 2 := by
    rcases rounds with h | h | h <;> rw [h] <;> rfl
  refine ⟨transformBlock s, execBlock_eq_next.2 ⟨rounds, initialised, rfl⟩, frame, ?_⟩
  rw [run_core, ← blockWords_encode, words]
  exact steps_blockWords (s.desc.rounds.toNat / 2) s

end Sys2Proof.Machine
end

/-! ### The text of a listing: what `listingLine` writes, `assembleLine` reads back -/
section
namespace Sys2Proof.Machine

/-! Cutting text at a character. -/

theorem cutAt_ne_nil (c : Char) (l : List Char) : cutAt c l ≠ [] := by
  cases l with
  | nil => exact List.cons_ne_nil _ _
  | cons h rest =>
    rw [cutAt]
    split
    · exact List.cons_ne_nil _ _
    · split <;> exact List.cons_ne_nil _ _

/-- The separator ends a piece. -/
theorem cutAt_separator (c : Char) (rest : List Char) : cutAt c (c :: rest) = [] :: cutAt c rest := by
  rw [cutAt]
  split
  · exact absurd ‹_› (cutAt_ne_nil c rest)
  · rw [if_pos rfl, ‹cutAt c rest = _›]

/-- Another character joins the piece it stands before. -/
theorem cutAt_other {c h : Char} {rest piece : List Char} {pieces : List (List Char)} (ne : h ≠ c)
    (hr : cutAt c rest = piece :: pieces) : cutAt c (h :: rest) = (h :: piece) :: pieces := by
  simp only [cutAt, hr, if_neg ne]

/-- Text without the separator is the start of the first piece. -/
theorem cutAt_append {c : Char} {l rest piece : List Char} {pieces : List (List Char)} (free : c ∉ l)
    (hr : cutAt c rest = piece :: pieces) : cutAt c (l ++ rest) = (l ++ piece) :: pieces := by
  induction l with
  | nil => exact hr
  | cons h l ih =>
    rw [List.mem_cons, not_or] at free
    exact cutAt_other (Ne.symm free.1) (ih free.2)

theorem cutAt_of_free {c : Char} {l : List Char} (free : c ∉ l) : cutAt c l = [l] := by
  simpa using cutAt_append free (rest := []) rfl

theorem cutAt_append_separator {c : Char} {l : List Char} (free : c ∉ l) (rest : List Char) :
    cutAt c (l ++ c :: rest) = l :: cutAt c rest := by
  simpa using cutAt_append free (cutAt_separator c rest)

/-! Decimal numbers. -/

/-- `decimal`'s loop over digits is the library's. -/
theorem foldl_decimal {digits : List Char} (h : ∀ c ∈ digits, c.isDigit = true) (v : Nat) :
    digits.foldl (fun acc c => acc.bind fun v => if c.isDigit then some (10 * v + (c.toNat - 48)) else none) (some v) =
      some (Nat.ofDigitChars 10 digits v) := by
  induction digits generalizing v with
  | nil => rw [Nat.ofDigitChars_nil, List.foldl_nil]
  | cons c cs ih =>
    rw [List.foldl_cons, Option.bind_some, if_pos (h c List.mem_cons_self), ih (fun d hd => h d (List.mem_cons_of_mem c hd)),
      Nat.ofDigitChars_cons]
    rfl

theorem decimalText_isDigit {n : Nat} {c : Char} (h : c ∈ decimalText n) : c.isDigit = true :=
  Nat.isDigit_of_mem_toDigits (by decide) (by decide) h

theorem decimal_decimalText (n : Nat) : decimal (decimalText n) = some n := by
  have nonempty : (decimalText n).isEmpty = false := List.isEmpty_eq_false_iff.2 Nat.toDigits_ne_nil
  rw [decimal, nonempty, if_neg Bool.false_ne_true, foldl_decimal fun _ => decimalText_isDigit, decimalText,
    Nat.ofDigitChars_ten_toDigits]

/-- What reads back each element reads back the list. -/
theorem mapM_map_eq_some {α β : Type} {f : α → Option β} {g : β → α} {l : List β}
    (h : ∀ b ∈ l, f (g b) = some b) :
    (l.map g).mapM f = some l := by
  induction l with
  | nil => rfl
  | cons b l ih =>
    rw [List.map_cons, List.mapM_cons, h b List.mem_cons_self, ih fun x hx => h x (List.mem_cons_of_mem b hx)]
    rfl

/-! The operands of a line. -/

theorem operandText_chars {ns : List Nat} {c : Char} (h : c ∈ operandText ns) : c.isDigit = true ∨ c = ',' := by
  induction ns using operandText.induct with
  | case1 => cases h
  | case2 n => exact .inl (decimalText_isDigit h)
  | case3 n m rest ih =>
    rw [operandText, List.mem_append, List.mem_cons] at h
    obtain h | h | h := h
    · exact .inl (decimalText_isDigit h)
    · exact .inr h
    · exact ih h

theorem comma_not_mem_decimalText (n : Nat) : ',' ∉ decimalText n := fun h =>
  absurd (decimalText_isDigit h) (by decide)

theorem cutAt_operandText {ns : List Nat} (h : ns ≠ []) : cutAt ',' (operandText ns) = ns.map decimalText := by
  induction ns using operandText.induct with
  | case1 => contradiction
  | case2 n => exact cutAt_of_free (comma_not_mem_decimalText n)
  | case3 n m rest ih =>
    rw [operandText, cutAt_append_separator (comma_not_mem_decimalText n), ih (List.cons_ne_nil _ _)]
    rfl

/-- The operands are read as they were written (R68). -/
theorem mapM_decimal_operandText {ns : List Nat} (h : ns ≠ []) : (cutAt ',' (operandText ns)).mapM decimal = some ns := by
  rw [cutAt_operandText h, mapM_map_eq_some fun n _ => decimal_decimalText n]

/-! The words of a line. -/

/-- The pieces `assembleLine` reads, of a line without its comment. -/
def textWords (text : List Char) : List (List Char) := (cutAt ' ' text).filter fun piece => !piece.isEmpty

/-- Text that stands as one word of a line. -/
def IsTextWord (l : List Char) : Prop := l ≠ [] ∧ ∀ c ∈ l, c ≠ ' ' ∧ c ≠ ';'

theorem IsTextWord.space_not_mem {l : List Char} (h : IsTextWord l) : ' ' ∉ l := fun hm => (h.2 ' ' hm).1 rfl

theorem textWords_append_space {l : List Char} (h : IsTextWord l) (rest : List Char) :
    textWords (l ++ ' ' :: rest) = l :: textWords rest := by
  rw [textWords, cutAt_append_separator h.space_not_mem]
  simp [h.1, textWords]

/-- The last word of a line, with or without a space before the comment. -/
theorem textWords_last {l tail : List Char} (h : IsTextWord l) (ht : tail = [] ∨ tail = [' ']) :
    textWords (l ++ tail) = [l] := by
  obtain rfl | rfl := ht
  · rw [List.append_nil, textWords, cutAt_of_free h.space_not_mem]
    simp [h.1]
  · exact textWords_append_space h []

theorem isTextWord_mnemonic (i : Instr) : IsTextWord (mnemonicOf i).toList := by
  cases i <;> simp [IsTextWord, mnemonicOf]

theorem isTextWord_operandText (n : Nat) (rest : List Nat) : IsTextWord (operandText (n :: rest)) := by
  constructor
  · cases rest with
    | nil => exact Nat.toDigits_ne_nil
    | cons m rest => simp [operandText]
  · rintro c hc
    obtain digit | rfl := operandText_chars hc
    · exact ⟨fun h => absurd (h ▸ digit) (by decide), fun h => absurd (h ▸ digit) (by decide)⟩
    · decide

/-- The words of an instruction's line: its mnemonic, and its operands where it has any (R68). -/
def lineWords (i : Instr) : List (List Char) :=
  match operandsOf i with
  | [] => [(mnemonicOf i).toList]
  | n :: rest => [(mnemonicOf i).toList, operandText (n :: rest)]

theorem textWords_listingLine (i : Instr) {tail : List Char} (ht : tail = [] ∨ tail = [' ']) :
    textWords ((listingLine i).toList ++ tail) = lineWords i := by
  have name := isTextWord_mnemonic i
  unfold listingLine lineWords
  cases operandsOf i with
  | nil => exact textWords_last name ht
  | cons n rest =>
    simp only [String.toList_append, String.toList_ofList, List.append_assoc, List.cons_append]
    rw [textWords_append_space name, textWords_last (isTextWord_operandText n rest) ht]

theorem semicolon_not_mem_listingLine (i : Instr) : ∀ c ∈ (listingLine i).toList, (c != ';') = true := by
  have name : ∀ c ∈ (mnemonicOf i).toList, (c != ';') = true := fun c hc =>
    bne_iff_ne.2 ((isTextWord_mnemonic i).2 c hc).2
  unfold listingLine
  cases operandsOf i with
  | nil => exact name
  | cons n rest =>
    have operands : ∀ c ∈ operandText (n :: rest), (c != ';') = true := fun c hc =>
      bne_iff_ne.2 ((isTextWord_operandText n rest).2 c hc).2
    simp only [String.toList_append, String.toList_ofList, List.forall_mem_append, List.forall_mem_cons]
    exact ⟨name, rfl, operands⟩

/-- The mnemonic and the operands of a well-formed instruction name it (R64, R68). -/
theorem assemble_operandsOf {i : Instr} (wf : i.wf = true) : assemble (mnemonicOf i) (operandsOf i) = some i := by
  cases i with
  | qr a b c d =>
    have digits : a.toNat < 16 ∧ b.toNat < 16 ∧ c.toNat < 16 ∧ d.toNat < 16 := ⟨a.isLt, b.isLt, c.isLt, d.isLt⟩
    simp [assemble, operandsOf, mnemonicOf, wf, digits]
  | xorb m => simp [assemble, operandsOf, mnemonicOf, wf_xorb.1 wf, Config.blockSize]
  | _ => rfl

/-- A line with the words of a well-formed instruction before its comment is that instruction (R68). -/
theorem assembleLine_of_words {i : Instr} {line : String} (wf : i.wf = true)
    (h : textWords (line.toList.takeWhile fun c => c != ';') = lineWords i) : assembleLine line = some i := by
  have named := assemble_operandsOf wf
  unfold textWords lineWords at h
  cases ho : operandsOf i with
  | nil =>
    rw [ho] at named h
    simp only [assembleLine, h, String.ofList_toList, named]
  | cons n rest =>
    rw [ho] at named h
    simp only [assembleLine, h, String.ofList_toList, mapM_decimal_operandText (List.cons_ne_nil n rest), named]

theorem assembleLine_listingLine {i : Instr} (wf : i.wf = true) : assembleLine (listingLine i) = some i := by
  refine assembleLine_of_words wf ?_
  rw [List.takeWhile_eq_self_iff.2 (semicolon_not_mem_listingLine i), ← textWords_listingLine i (.inl rfl),
    List.append_nil]

/-- A comment after `;` does not change the line (R68). -/
theorem assembleLine_comment {i : Instr} (wf : i.wf = true) (comment : String) :
    assembleLine (listingLine i ++ (" ;" ++ comment)) = some i := by
  refine assembleLine_of_words wf ?_
  have kept : (listingLine i ++ (" ;" ++ comment)).toList.takeWhile (fun c => c != ';') =
      (listingLine i).toList ++ [' '] := by
    rw [String.toList_append, String.toList_append, List.takeWhile_append_of_pos (semicolon_not_mem_listingLine i)]
    rfl
  rw [kept, textWords_listingLine i (.inr rfl)]

/-- Settles O7: the listing is read line by line; R68's four lines are computed. -/
theorem assembledListingNamesTheWord : Obligations.AssembledListingNamesTheWord := by
  refine ⟨fun is wf => ?_, fun i comment wf => assembleLine_comment wf comment, by decide⟩
  rw [assembleListing, mapM_map_eq_some fun i hi => assembleLine_listingLine (wf i hi), Option.map_some]

end Sys2Proof.Machine
end

/-! ### The sequencer's run of a command is XFORM's (R117) -/
section
namespace Sys2Proof.Machine

open Sys2Proof.Safety

/-- What follows a step is asked of its next state only. -/
theorem andThen_congr {o : Host.Outcome State Fault Refusal} {f g : State → Host.Outcome State Fault Refusal}
    (h : ∀ s, o = .next s → f s = g s) : andThen o f = andThen o g := by
  cases o with
  | next s => exact h s rfl
  | fault r => rfl
  | refused r => rfl

/-! `k` steps of an engine that is busy at each of them. -/

/-- The engine takes `k` steps from `s`, each in a busy state, with the outcome `o`; it may stop on the way. -/
inductive BusyRun : Nat → State → Host.Outcome State Fault Refusal → Prop
  | done (s : State) : BusyRun 0 s (.next s)
  | more {k : Nat} {s : State} {f : State → Host.Outcome State Fault Refusal} (busy : s.ph ≠ .idle)
      (rest : ∀ u, engineStep s = .next u → BusyRun k u (f u)) : BusyRun (k + 1) s (andThen (engineStep s) f)

/-- A run goes on from the state it reaches. -/
theorem BusyRun.bind {j k : Nat} {s : State} {o : Host.Outcome State Fault Refusal}
    {f : State → Host.Outcome State Fault Refusal} (h : BusyRun j s o) (hf : ∀ u, o = .next u → BusyRun k u (f u)) :
    BusyRun (j + k) s (andThen o f) := by
  induction h with
  | done s => rw [Nat.zero_add]; exact hf s rfl
  | more busy rest ih =>
    rw [Nat.add_right_comm, andThen_assoc]
    exact .more busy fun u hu => ih u hu fun v hv => hf v (by rw [hu, andThen_next, hv])

theorem BusyRun.trans {j k : Nat} {s u : State} {o : Host.Outcome State Fault Refusal} (h : BusyRun j s (.next u))
    (h' : BusyRun k u o) : BusyRun (j + k) s o :=
  h.bind (f := fun _ => o) fun _ hv => Host.Outcome.next.inj hv ▸ h'

/-- A busy run is the machine's run, where the machine gives a busy engine the turn. -/
theorem BusyRun.steps_eq {k : Nat} {s : State} {o : Host.Outcome State Fault Refusal} (h : BusyRun k s o)
    (turn : ∀ u, surroundings u = surroundings s → u.ph ≠ .idle → step u = engineStep u) : steps k s = o := by
  induction h with
  | done s => rfl
  | more busy rest ih =>
    rw [steps, turn _ rfl busy]
    exact andThen_congr fun u hu => ih u hu fun v hv => turn v (hv.trans (engineStep_surroundings hu))

/-! The state of the datapath with a phase and the host's moves: XFORM looks at neither. -/

/-- The state `s` in phase `p`, with the host's moves `h`. -/
def State.inPhase (s : State) (p : Phase) (h : List HostMove) : State := { s with ph := p, host := h }

section
variable {s t : State} {p q : Phase} {h : List HostMove}

theorem firstFault_inPhase (l : List (Access × Nat)) : firstFault (s.inPhase p h) l = firstFault s l := by
  induction l with
  | nil => rfl
  | cons a l ih => rw [firstFault, firstFault, ih]; rfl

theorem overlayMem_inPhase (m : Nat) : overlayMem (s.inPhase p h) m = overlayMem s m := by
  induction m with
  | zero => rfl
  | succ m ih => rw [overlayMem, overlayMem, ih]; rfl

/-- LDKN's operation looks at neither phase nor host (R80). -/
theorem loadKeyNonce_inPhase :
    loadKeyNonce (s.inPhase p h) = andThen (loadKeyNonce s) fun u => .next (u.inPhase p h) := by
  rw [loadKeyNonce, loadKeyNonce, firstFault_inPhase, show loadAccesses (s.inPhase p h) = loadAccesses s from rfl]
  cases firstFault s (loadAccesses s) <;> rfl

/-- XORB's operation looks at neither phase nor host (R140). -/
theorem overlay_inPhase (m : Nat) :
    overlay m (s.inPhase p h) = andThen (overlay m s) fun u => .next (u.inPhase p h) := by
  rw [overlay, overlay, firstFault_inPhase, overlayMem_inPhase,
    show overlayRefusal (s.inPhase p h) m = overlayRefusal s m from rfl,
    show overlayAccesses (s.inPhase p h) m = overlayAccesses s m from rfl]
  cases overlayRefusal s m with
  | some r => rfl
  | none => cases firstFault s (overlayAccesses s m) <;> rfl

/-- One block of XFORM looks at neither phase nor host (R116). -/
theorem commandBlock_inPhase :
    commandBlock (s.inPhase p h) = andThen (commandBlock s) fun u => .next (u.inPhase p h) := by
  have block : transformBlock (initialise (s.inPhase p h)) = (transformBlock (initialise s)).inPhase p h := rfl
  rw [commandBlock, commandBlock, block, overlay_inPhase]
  simp only [andThen_assoc]
  rfl

theorem commandBlocks_inPhase (r : Nat) :
    commandBlocks r (s.inPhase p h) = andThen (commandBlocks r s) fun u => .next (u.inPhase p h) := by
  induction r generalizing s with
  | zero => rfl
  | succ r ih =>
    rw [commandBlocks, commandBlocks, commandBlock_inPhase, andThen_assoc, andThen_assoc]
    exact congrArg _ (funext fun u => ih)

/-- The rest of XFORM ends in IDLE, whatever the phase (R116). -/
theorem commandBody_inPhase :
    commandBody (s.inPhase p h) = andThen (commandBody s) fun u => .next (u.inPhase .idle h) := by
  have loop : ∀ r, andThen (loadKeyNonce (s.inPhase p h)) (commandBlocks r) =
      andThen (andThen (loadKeyNonce s) (commandBlocks r)) fun u => .next (u.inPhase p h) := by
    intro r
    rw [loadKeyNonce_inPhase, andThen_assoc, andThen_assoc]
    exact andThen_congr fun u _ => commandBlocks_inPhase r
  rw [commandBody, commandBody, show (s.inPhase p h).desc = s.desc from rfl, loop, andThen_assoc]
  split
  · rfl
  · simp only [andThen_assoc]
    rfl

/-- XFORM runs the command whatever phase and host's moves are, keeps the moves and ends in IDLE (R116). -/
theorem runCommand_inPhase :
    runCommand (s.inPhase p h) = andThen (runCommand s) fun u => .next (u.inPhase .idle h) := by
  have body := commandBody_inPhase (s := setBlockCount (beginCommand s)) (p := .valid) (h := h)
  simp only [runCommand, show beginCommand (s.inPhase p h) = (beginCommand s).inPhase .valid h from rfl,
    show ((beginCommand s).inPhase .valid h).desc = (beginCommand s).desc from rfl]
  cases entryError (beginCommand s).desc with
  | some e => rfl
  | none =>
    simp only
    split
    · rfl
    · exact body

end

/-- XFORM ends in IDLE with a result (R116). -/
theorem runCommand_ends {s t : State} (h : runCommand s = .next t) : t.ph = .idle ∧ t.result ≠ .none := by
  simp only [runCommand] at h
  split at h
  · exact Host.Outcome.next.inj h ▸ ⟨rfl, nofun⟩
  · split at h
    · exact Host.Outcome.next.inj h ▸ ⟨rfl, nofun⟩
    · obtain ⟨u, -, hu⟩ := andThen_eq_next.1 h
      exact Host.Outcome.next.inj hu ▸ ⟨rfl, nofun⟩

/-! The words of the sequencer, one phase each (R115). -/

section
variable {s t : State} {p q : Phase} {h : List HostMove} {i : Instr}

/-- A busy engine with legal ranges runs the word it issues, then moves PC (R115). -/
theorem busyRun_word (busy : s.ph ≠ .idle) (ranges : LegalRanges s.params s.desc) (hi : issue s = some i) :
    BusyRun 1 s (andThen (exec i s) fun u => .next (advance u)) := by
  have word : engineStep s = andThen (exec i s) fun u => .next (advance u) := by
    simp only [engineStep, if_neg busy, rangeRefusal_eq_none.2 ranges, hi]
  have run := BusyRun.more (f := .next) busy fun u _ => .done u
  rwa [word, andThen_assoc] at run

/-- A word that goes on in its phase, where PC moves to the next phase whatever the state. -/
theorem busyRun_next (busy : p ≠ .idle) (ranges : LegalRanges s.params s.desc) (hi : issue (s.inPhase p h) = some i)
    (he : exec i (s.inPhase p h) = .next (t.inPhase p h)) (ha : ∀ u : State, advance (u.inPhase p h) = u.inPhase q h) :
    BusyRun 1 (s.inPhase p h) (.next (t.inPhase q h)) := by
  have run := busyRun_word (s := s.inPhase p h) busy ranges hi
  rwa [he, andThen_next, ha] at run

end

/-! The rounds of one block (R94, R115). -/

/-- The tuple the sequencer issues at `QI` (R71). -/
def tupleAt (qi : BitVec 3) : BitVec 4 × BitVec 4 × BitVec 4 × BitVec 4 := Config.tuples.getD qi.toNat (0, 4, 8, 12)

theorem tupleAt_mem (qi : BitVec 3) : tupleAt qi ∈ Config.tuples := by
  revert qi
  decide

/-- The state `s` in the rounds: the working state `x`, double-round `d`, quarter-round `q`. -/
def State.inRound (s : State) (x : Vector Word 16) (d : BitVec 4) (q : BitVec 3) (h : List HostMove) : State :=
  { s with x := x, dr := d, qi := q, ph := .qr, host := h }

/-- The state `s` after the last round, with the working state `x`. -/
def State.afterRounds (s : State) (x : Vector Word 16) (h : List HostMove) : State :=
  { s with x := x, dr := 0, qi := 0, ph := .ffadd, host := h }

section
variable {s : State} {h : List HostMove}

/-- PC after a quarter-round that is not the last of its double-round (R115, row P_QR). -/
theorem advanceQr_inRound {q : BitVec 3} (hq : q ≠ 7) (x : Vector Word 16) (d : BitVec 4) :
    advanceQr (s.inRound x d q h) = s.inRound x d (q + 1) h :=
  if_pos hq

/-- PC after the last quarter-round of a double-round (R115, row P_QR). -/
theorem advanceQr_inRound_last (x : Vector Word 16) (d : BitVec 4) : advanceQr (s.inRound x d 7 h) =
    if d.toNat + 1 = doubleRoundCount s.desc.rounds then s.afterRounds x h else s.inRound x (d + 1) 0 h :=
  if_neg (not_not.2 rfl)

theorem busyRun_quarterRound (ranges : LegalRanges s.params s.desc) (x : Vector Word 16) (d : BitVec 4) (q : BitVec 3) :
    BusyRun 1 (s.inRound x d q h) (.next (advanceQr (s.inRound (quarterRoundAt (tupleAt q) x) d q h))) := by
  have run := busyRun_word (s := s.inRound x d q h) (i := qrInstr (tupleAt q)) (by simp [State.inRound]) ranges rfl
  rwa [exec_qrInstr (tupleAt_mem q), andThen_next] at run

/-- The eight quarter-rounds of a double-round, and PC after them. -/
theorem busyRun_doubleRound (ranges : LegalRanges s.params s.desc) (x : Vector Word 16) (d : BitVec 4) :
    BusyRun 8 (s.inRound x d 0 h) (.next (if d.toNat + 1 = doubleRoundCount s.desc.rounds
      then s.afterRounds (doubleRound x) h else s.inRound (doubleRound x) (d + 1) 0 h)) := by
  have quarter (q : BitVec 3) (hq : q ≠ 7) (x : Vector Word 16) :
      BusyRun 1 (s.inRound x d q h) (.next (s.inRound (quarterRoundAt (tupleAt q) x) d (q + 1) h)) :=
    advanceQr_inRound (s := s) hq (quarterRoundAt (tupleAt q) x) d ▸ busyRun_quarterRound ranges x d q
  have last (x : Vector Word 16) := busyRun_quarterRound (h := h) ranges x d 7
  simp only [advanceQr_inRound_last] at last
  exact (quarter 0 (by decide) _).trans <| (quarter 1 (by decide) _).trans <| (quarter 2 (by decide) _).trans <|
    (quarter 3 (by decide) _).trans <| (quarter 4 (by decide) _).trans <| (quarter 5 (by decide) _).trans <|
    (quarter 6 (by decide) _).trans <| last _

/-- The rounds of a block: DR counts the double-rounds up to the last (R94). -/
theorem busyRun_doubleRounds {r : Nat} (ranges : LegalRanges s.params s.desc) (bound : doubleRoundCount s.desc.rounds ≤ 10)
    {d : BitVec 4} (count : d.toNat + (r + 1) = doubleRoundCount s.desc.rounds) (x : Vector Word 16) :
    BusyRun (8 * (r + 1)) (s.inRound x d 0 h) (.next (s.afterRounds (doubleRounds (r + 1) x) h)) := by
  have round := busyRun_doubleRound (h := h) ranges x d
  induction r generalizing d x with
  | zero => rwa [if_pos count] at round
  | succ r ih =>
    have next : (d + 1).toNat = d.toNat + 1 := by
      rw [BitVec.toNat_add]
      exact Nat.mod_eq_of_lt (by show d.toNat + 1 < 16; omega)
    rw [if_neg (by omega)] at round
    rw [Nat.mul_succ, Nat.add_comm]
    exact round.trans (ih (by omega) (doubleRound x) (busyRun_doubleRound ranges _ _))

end

/-! One block and the loop over the blocks (R115, R116). -/

section
variable {s : State} {h : List HostMove}

/-- XFORM's loop with `r` blocks left: what the sequencer needs to issue its words as XFORM runs them. -/
structure LoopInv (s : State) (r : Nat) : Prop where
  ranges : LegalRanges s.params s.desc
  rounds : s.desc.rounds = 8 ∨ s.desc.rounds = 12 ∨ s.desc.rounds = 20
  blocks : s.nblk.toNat = blockCount s.desc.inLen
  left : s.blk.toNat + r = s.nblk.toNat

/-- With a block left its byte count is legal, and P_XOR issues its word (R123). -/
theorem LoopInv.issue_xor {r : Nat} (inv : LoopInv s (r + 1)) (ph : s.ph = .xor) :
    ∃ m : Byte, issue s = some (.xorb m) ∧ (∀ u, exec (.xorb m) u = overlay (blockBytes s) u) := by
  have blocks := inv.blocks
  have left := inv.left
  have low : 1 ≤ blockBytes s ∧ blockBytes s ≤ 64 := by
    unfold blockCount Config.blockSize at blocks
    unfold blockBytes Config.blockSize
    split <;> omega
  have m : (BitVec.ofNat 8 (blockBytes s)).toNat = blockBytes s := by
    rw [BitVec.toNat_ofNat]
    omega
  refine ⟨BitVec.ofNat 8 (blockBytes s), ?_, fun u => ?_⟩
  · simp only [issue, ph, issuedOverlay]
    exact if_pos ⟨by omega, low⟩
  · rw [exec_xorb_of_legal (by omega) (by omega), m]

/-- The words of the sequencer that answer at once, with PC after them (R115). -/
theorem busyRun_init (ranges : LegalRanges s.params s.desc) :
    BusyRun 1 (s.inPhase .init h) (.next ((initialise s).inPhase .qr h)) :=
  busyRun_next (by decide) ranges rfl rfl fun _ => rfl

theorem busyRun_ffadd (ranges : LegalRanges s.params s.desc) :
    BusyRun 1 (s.inPhase .ffadd h) (.next ((addSaved s).inPhase .ser h)) :=
  busyRun_next (by decide) ranges rfl rfl fun _ => rfl

theorem busyRun_ser (ranges : LegalRanges s.params s.desc) :
    BusyRun 1 (s.inPhase .ser h) (.next ((serialiseX s).inPhase .xor h)) := by
  have word : exec .ser (s.inPhase .ser h) = .next ((serialiseX s).inPhase .ser h) := by
    simp only [exec, execSer, serialiseX, State.inPhase]
  exact busyRun_next (by decide) ranges rfl word fun _ => rfl

theorem busyRun_wipe (ranges : LegalRanges s.params s.desc) :
    BusyRun 1 (s.inPhase .wipe h) (.next ((wipeRegisters s).inPhase .ret h)) :=
  busyRun_next (by decide) ranges rfl rfl fun _ => rfl

/-- RET ends the command (R114). -/
theorem busyRun_ret (ranges : LegalRanges s.params s.desc) :
    BusyRun 1 (s.inPhase .ret h) (.next ((endCommand s).inPhase .idle h)) :=
  busyRun_word (s := s.inPhase .ret h) (i := .ret) (by simp [State.inPhase]) ranges rfl

/-- CTRINC, and PC to the next block or past the loop (R113, R115). -/
theorem busyRun_inc (ranges : LegalRanges s.params s.desc) : BusyRun 1 (s.inPhase .inc h)
    (.next ((advanceBlock (advanceCounter s)).inPhase (if s.blk.toNat + 1 = s.nblk.toNat then .wipe else .init) h)) := by
  have run := busyRun_word (s := s.inPhase .inc h) (i := .ctrinc) (by simp [State.inPhase]) ranges rfl
  have pc : advance ((advanceCounter s).inPhase .inc h) =
      (advanceBlock (advanceCounter s)).inPhase (if s.blk.toNat + 1 = s.nblk.toNat then .wipe else .init) h := by
    show (if s.blk.toNat + 1 = s.nblk.toNat then _ else _) = _
    split <;> rfl
  exact pc ▸ run

/-- INIT leaves the state at the first quarter-round (R81). -/
theorem initialise_inPhase_qr : (initialise s).inPhase .qr h = (initialise s).inRound (initialise s).x 0 0 h := rfl

theorem initialise_afterRounds (f : Vector Word 16 → Vector Word 16) :
    (initialise s).afterRounds (f (initialise s).x) h = ((initialise s).mapX f).inPhase .ffadd h := rfl

/-- The keystream of a block: INIT, the rounds, FFADD and SER leave what XFORM's line 10 leaves (R97, R116). -/
theorem busyRun_keystream {r : Nat} (inv : LoopInv s r) : BusyRun (4 * s.desc.rounds.toNat + 3) (s.inPhase .init h)
    (.next ((transformBlock (initialise s)).inPhase .xor h)) := by
  obtain ⟨n, hn, words, bound⟩ : ∃ n, doubleRoundCount s.desc.rounds = n + 1 ∧
      4 * s.desc.rounds.toNat + 3 = 1 + (8 * (n + 1) + (1 + 1)) ∧ n + 1 ≤ 10 := by
    rcases inv.rounds with hr | hr | hr <;> rw [hr]
    exacts [⟨3, rfl, rfl, by decide⟩, ⟨5, rfl, rfl, by decide⟩, ⟨9, rfl, rfl, by decide⟩]
  have rounds := busyRun_doubleRounds (s := initialise s) (h := h) (r := n) (d := 0) inv.ranges (hn.trans_le bound)
    ((Nat.zero_add _).trans hn.symm) (initialise s).x
  rw [initialise_afterRounds, ← initialise_inPhase_qr] at rounds
  rw [words, transformBlock, initialise_desc, hn]
  have ranges : LegalRanges ((initialise s).mapX (doubleRounds (n + 1))).params
      ((initialise s).mapX (doubleRounds (n + 1))).desc := inv.ranges
  generalize (initialise s).mapX (doubleRounds (n + 1)) = u at rounds ranges
  have tail : BusyRun (1 + 1) (u.inPhase .ffadd h) (.next ((serialiseX (addSaved u)).inPhase .xor h)) :=
    (busyRun_ffadd ranges).trans (busyRun_ser ranges)
  exact (busyRun_init inv.ranges).trans (rounds.trans tail)

theorem LoopInv.keystream {r : Nat} (inv : LoopInv s r) : LoopInv (transformBlock (initialise s)) r :=
  ⟨by simpa using inv.ranges, by simpa using inv.rounds, by simpa using inv.blocks, by simpa using inv.left⟩

/-- P_XOR runs the overlay of XFORM's line 12 (R115, R116). -/
theorem busyRun_xor {r : Nat} (inv : LoopInv s (r + 1)) : BusyRun 1 (s.inPhase .xor h)
    (andThen (overlay (blockBytes s) s) fun t => .next (t.inPhase .inc h)) := by
  have here : LoopInv (s.inPhase .xor h) (r + 1) := ⟨inv.ranges, inv.rounds, inv.blocks, inv.left⟩
  obtain ⟨m, hi, he⟩ := here.issue_xor rfl
  have run := busyRun_word (s := s.inPhase .xor h) (by simp [State.inPhase]) inv.ranges hi
  rw [he, overlay_inPhase, andThen_assoc] at run
  exact run

/-- P_XOR and P_INC run XFORM's lines 11 to 14 (R115, R116). -/
theorem busyRun_combine {r : Nat} (inv : LoopInv s (r + 1)) : BusyRun 2 (s.inPhase .xor h)
    (andThen (overlay (blockBytes s) s) fun t =>
      .next ((advanceBlock (advanceCounter t)).inPhase (if r = 0 then .wipe else .init) h)) := by
  have last : s.blk.toNat + 1 = s.nblk.toNat ↔ r = 0 := by
    have := inv.left
    omega
  have run := (busyRun_xor (h := h) inv).bind (k := 1)
    (f := fun u => .next ((advanceBlock (advanceCounter u)).inPhase (if r = 0 then .wipe else .init) h)) (by
      intro u hu
      obtain ⟨t, ht, hu⟩ := andThen_eq_next.1 hu
      obtain ⟨-, -, rfl⟩ := overlay_eq_next.1 ht
      obtain rfl := Host.Outcome.next.inj hu
      have inc := busyRun_inc (h := h) (s := { s with mem := overlayMem s (blockBytes s) }) inv.ranges
      simp only [last] at inc
      exact inc)
  rw [andThen_assoc] at run
  exact run

/-- One block of the sequencer is one block of XFORM (R115, R116). -/
theorem busyRun_block {r : Nat} (inv : LoopInv s (r + 1)) : BusyRun (4 * s.desc.rounds.toNat + 5) (s.inPhase .init h)
    (andThen (commandBlock s) fun t => .next (t.inPhase (if r = 0 then .wipe else .init) h)) := by
  rw [commandBlock, andThen_assoc]
  exact (busyRun_keystream (h := h) inv).trans (busyRun_combine inv.keystream)

/-- What one block of XFORM does to the block index and the registers the loop reads (R116). -/
theorem commandBlock_counts {t : State} (ht : commandBlock s = .next t) :
    t.blk = s.blk + 1 ∧ t.nblk = s.nblk ∧ t.desc = s.desc ∧ t.params = s.params := by
  obtain ⟨u, hu, ht⟩ := andThen_eq_next.1 ht
  obtain ⟨-, -, rfl⟩ := overlay_eq_next.1 hu
  obtain rfl := Host.Outcome.next.inj ht
  simp

/-- XFORM's block keeps the loop's invariant. -/
theorem LoopInv.afterBlock {r : Nat} (inv : LoopInv s (r + 1)) {t : State} (ht : commandBlock s = .next t) :
    LoopInv t r := by
  obtain ⟨ranges, rounds, blocks, left⟩ := inv
  obtain ⟨blk, nblk, desc, params⟩ := commandBlock_counts ht
  refine ⟨by rwa [desc, params], by rwa [desc], by rwa [desc, nblk], ?_⟩
  have := s.nblk.isLt
  have wrap : (s.blk + 1).toNat = s.blk.toNat + 1 := by
    rw [BitVec.toNat_add]
    exact Nat.mod_eq_of_lt (by show s.blk.toNat + 1 < 2 ^ 32; omega)
  rw [blk, nblk, wrap]
  omega

/-- The sequencer's loop is XFORM's (R115, R116). -/
theorem busyRun_blocks {r : Nat} (inv : LoopInv s (r + 1)) :
    BusyRun ((r + 1) * (4 * s.desc.rounds.toNat + 5)) (s.inPhase .init h)
      (andThen (commandBlocks (r + 1) s) fun t => .next (t.inPhase .wipe h)) := by
  induction r generalizing s with
  | zero =>
    have run := busyRun_block (h := h) inv
    rw [if_pos rfl] at run
    rw [commandBlocks, andThen_assoc, Nat.zero_add, Nat.one_mul]
    exact run
  | succ r ih =>
    have run := (busyRun_block (h := h) inv).bind (k := (r + 1) * (4 * s.desc.rounds.toNat + 5))
      (f := fun u => andThen (commandBlocks (r + 1) u) fun t => .next (t.inPhase .wipe h)) (by
        intro u hu
        obtain ⟨t, ht, hu⟩ := andThen_eq_next.1 hu
        obtain rfl := Host.Outcome.next.inj hu
        obtain ⟨-, -, desc, -⟩ := commandBlock_counts ht
        rw [if_neg (Nat.succ_ne_zero r), commandBlocks_inPhase, andThen_assoc, ← desc]
        exact ih (inv.afterBlock ht))
    rw [andThen_assoc] at run
    rw [commandBlocks, andThen_assoc, Nat.succ_mul (r + 1), Nat.add_comm]
    simp only [andThen_next, commandBlocks_inPhase, andThen_assoc] at run
    exact run

end

end Sys2Proof.Machine
end

/-! ### A whole command, and the calls of the wrappers (R70, R117, R122) -/
section
namespace Sys2Proof.Machine

open Sys2Proof.Safety

section
variable {s t : State} {h : List HostMove}

/-- XFORM's steps leave the ranges as they are. -/
theorem ranges_of_surroundings (ranges : LegalRanges s.params s.desc) (ht : surroundings t = surroundings s) :
    LegalRanges t.params t.desc := by
  simp only [surroundings, Prod.mk.injEq] at ht
  obtain ⟨desc, -, params, -⟩ := ht
  rwa [desc, params]

/-- VALID passes (R111). -/
theorem busyRun_valid (ranges : LegalRanges s.params s.desc) (checked : entryError s.desc = none) :
    BusyRun 1 (s.inPhase .valid h) (.next (s.inPhase .ovf h)) := by
  have word : exec .valid (s.inPhase .valid h) = .next (s.inPhase .valid h) := by
    simp only [exec, execValid, State.inPhase, checked]
  exact busyRun_next (by decide) ranges rfl word fun _ => rfl

/-- VALID traps (R111, R157). -/
theorem busyRun_valid_trap {e : Exc} (ranges : LegalRanges s.params s.desc) (failed : entryError s.desc = some e) :
    BusyRun 1 (s.inPhase .valid h) (.next ((takeTrap e s).inPhase .idle h)) := by
  have word : exec .valid (s.inPhase .valid h) = .next ((takeTrap e s).inPhase .idle h) := by
    simp only [exec, execValid, State.inPhase, failed, takeTrap]
  have run := busyRun_word (s := s.inPhase .valid h) (i := .valid) (by simp [State.inPhase]) ranges rfl
  rwa [word, andThen_next] at run

/-- OVFCHK counts the blocks, and PC skips the loop when there is none (R112, R115). -/
theorem busyRun_ovfchk (ranges : LegalRanges s.params s.desc) (fits : counterOverflows s.desc = false) :
    BusyRun 1 (s.inPhase .ovf h)
      (.next ((setBlockCount s).inPhase (if (setBlockCount s).nblk = 0 then .wipe else .load) h)) := by
  have word : exec .ovfchk (s.inPhase .ovf h) = .next ((setBlockCount s).inPhase .ovf h) := by
    simp only [exec, execOvfchk, State.inPhase, fits, setBlockCount, Bool.false_eq_true, if_false]
  have pc (u : State) : advance (u.inPhase .ovf h) = u.inPhase (if u.nblk = 0 then .wipe else .load) h := by
    show (if u.nblk = 0 then _ else _) = _
    split <;> rfl
  have run := busyRun_word (s := s.inPhase .ovf h) (i := .ovfchk) (by simp [State.inPhase]) ranges rfl
  rwa [word, andThen_next, pc] at run

/-- OVFCHK traps (R112, R157). -/
theorem busyRun_ovfchk_trap (ranges : LegalRanges s.params s.desc) (overflows : counterOverflows s.desc = true) :
    BusyRun 1 (s.inPhase .ovf h) (.next ((takeTrap .counterOverflow s).inPhase .idle h)) := by
  have word : exec .ovfchk (s.inPhase .ovf h) = .next ((takeTrap .counterOverflow s).inPhase .idle h) := by
    simp only [exec, execOvfchk, State.inPhase, overflows, takeTrap, if_true]
  have run := busyRun_word (s := s.inPhase .ovf h) (i := .ovfchk) (by simp [State.inPhase]) ranges rfl
  rwa [word, andThen_next] at run

/-- LDKN, as XFORM's line 8 (R80, R116). -/
theorem busyRun_ldkn (ranges : LegalRanges s.params s.desc) : BusyRun 1 (s.inPhase .load h)
    (andThen (loadKeyNonce s) fun t => .next (t.inPhase .init h)) := by
  have run := busyRun_word (s := s.inPhase .load h) (i := .ldkn) (by simp [State.inPhase]) ranges rfl
  rw [show exec .ldkn (s.inPhase .load h) = loadKeyNonce (s.inPhase .load h) from rfl, loadKeyNonce_inPhase,
    andThen_assoc] at run
  exact run

/-- WIPE and RET end the command (R114, R141). -/
theorem busyRun_end (ranges : LegalRanges s.params s.desc) :
    BusyRun 2 (s.inPhase .wipe h) (.next ((endCommand (wipeRegisters s)).inPhase .idle h)) :=
  (busyRun_wipe ranges).trans (busyRun_ret (s := wipeRegisters s) ranges)

/-- The loop from LDKN on is XFORM's (R115, R116). -/
theorem busyRun_loop {r : Nat} (inv : LoopInv s (r + 1)) :
    BusyRun (1 + (r + 1) * (4 * s.desc.rounds.toNat + 5)) (s.inPhase .load h)
    (andThen (andThen (loadKeyNonce s) (commandBlocks (r + 1))) fun t => .next (t.inPhase .wipe h)) := by
  have run := (busyRun_ldkn (h := h) inv.ranges).bind (k := (r + 1) * (4 * s.desc.rounds.toNat + 5))
    (f := fun u => andThen (commandBlocks (r + 1) u) fun t => .next (t.inPhase .wipe h)) (by
      intro u hu
      obtain ⟨t, ht, hu⟩ := andThen_eq_next.1 hu
      obtain ⟨-, rfl⟩ := loadKeyNonce_eq_next.1 ht
      obtain rfl := Host.Outcome.next.inj hu
      have latched : LoopInv (latchWords s) (r + 1) := ⟨inv.ranges, inv.rounds, inv.blocks, inv.left⟩
      rw [commandBlocks_inPhase, andThen_assoc]
      exact busyRun_blocks latched)
  rw [andThen_assoc] at run ⊢
  simp only [andThen_next, commandBlocks_inPhase, andThen_assoc] at run
  exact run

/-- The number of blocks of a command that does not overflow fits NBLK (R15, R112). -/
theorem setBlockCount_toNat (fits : counterOverflows s.desc = false) :
    (setBlockCount s).nblk.toNat = blockCount s.desc.inLen := by
  have bound := counterOverflows_eq_false.1 fits
  simp only [setBlockCount_nblk, blockCount, Config.blockSize, BitVec.toNat_ofNat]
  omega

/-- XFORM's loop leaves the surroundings, LDKN included. -/
theorem loop_surroundings {r : Nat} (ht : andThen (loadKeyNonce s) (commandBlocks r) = .next t) :
    surroundings t = surroundings s := by
  obtain ⟨u, hu, ht⟩ := andThen_eq_next.1 ht
  obtain ⟨-, rfl⟩ := loadKeyNonce_eq_next.1 hu
  exact (commandBlocks_surroundings ht).trans (by simp [surroundings])

/-- The sequencer after OVFCHK, with no block to process (R115, R116). -/
theorem busyRun_body_empty (ranges : LegalRanges s.params s.desc) (none : blockCount s.desc.inLen = 0) :
    BusyRun 2 (s.inPhase .wipe h) (andThen (commandBody s) fun t => .next (t.inPhase .idle h)) := by
  rw [commandBody, if_pos none]
  exact busyRun_end ranges

/-- The sequencer after OVFCHK, with blocks to process (R115, R116). -/
theorem busyRun_body_blocks {r : Nat} (inv : LoopInv s (r + 1)) (blocks : blockCount s.desc.inLen = r + 1) :
    BusyRun (1 + (r + 1) * (4 * s.desc.rounds.toNat + 5) + 2) (s.inPhase .load h)
      (andThen (commandBody s) fun t => .next (t.inPhase .idle h)) := by
  have run := (busyRun_loop (h := h) inv).bind (k := 2)
    (f := fun u => .next ((endCommand (wipeRegisters u)).inPhase .idle h)) (by
      intro u hu
      obtain ⟨t, ht, hu⟩ := andThen_eq_next.1 hu
      obtain rfl := Host.Outcome.next.inj hu
      exact busyRun_end (ranges_of_surroundings inv.ranges (loop_surroundings ht)))
  rw [andThen_assoc] at run
  rw [commandBody, blocks, if_neg (Nat.succ_ne_zero r), andThen_assoc]
  exact run

/-- The sequencer from OVFCHK's success to the end is XFORM's body (R115, R116). -/
theorem busyRun_body (ranges : LegalRanges s.params s.desc) (checked : entryError s.desc = none)
    (fits : counterOverflows s.desc = false) (start : s.blk = 0) :
    BusyRun (if blockCount s.desc.inLen = 0 then 2 else 1 + blockCount s.desc.inLen * (4 * s.desc.rounds.toNat + 5) + 2)
      ((setBlockCount s).inPhase (if (setBlockCount s).nblk = 0 then .wipe else .load) h)
      (andThen (commandBody (setBlockCount s)) fun t => .next (t.inPhase .idle h)) := by
  have count := setBlockCount_toNat fits
  have noBlock : (setBlockCount s).nblk = 0 ↔ blockCount s.desc.inLen = 0 := by
    rw [← count, ← BitVec.toNat_inj]
    rfl
  simp only [noBlock]
  cases hn : blockCount s.desc.inLen with
  | zero =>
    rw [if_pos rfl, if_pos rfl]
    exact busyRun_body_empty (s := setBlockCount s) ranges hn
  | succ r =>
    obtain ⟨-, -, -, rounds⟩ := entryError_eq_none.1 checked
    have left : (setBlockCount s).blk.toNat + (r + 1) = (setBlockCount s).nblk.toNat := by
      rw [count, hn, setBlockCount_blk, start]
      exact Nat.zero_add _
    rw [if_neg (Nat.succ_ne_zero r), if_neg (Nat.succ_ne_zero r)]
    exact busyRun_body_blocks (s := setBlockCount s) ⟨ranges, rounds, count, left⟩ hn

/-- The sequencer runs a command with legal ranges as XFORM does, busy until its last control word (R117). -/
theorem busyRun_command (ranges : LegalRanges s.params s.desc) :
    BusyRun (commandSteps s.desc) (beginCommand s) (runCommand s) := by
  have desc : (beginCommand s).desc = s.desc := beginCommand_desc s
  cases checked : entryError s.desc with
  | some e =>
    simp only [commandSteps, runCommand, desc, checked]
    exact busyRun_valid_trap (s := beginCommand s) (h := s.host) ranges checked
  | none =>
    have valid := busyRun_valid (s := beginCommand s) (h := s.host) ranges checked
    cases fits : counterOverflows s.desc with
    | true =>
      simp only [commandSteps, runCommand, desc, checked, fits, if_true]
      exact valid.trans (busyRun_ovfchk_trap (s := beginCommand s) (h := s.host) ranges fits)
    | false =>
      have body := busyRun_body (s := beginCommand s) (h := s.host) ranges checked fits rfl
      have atIdle : andThen (commandBody (setBlockCount (beginCommand s))) (fun t => .next (t.inPhase .idle s.host)) =
          commandBody (setBlockCount (beginCommand s)) :=
        (commandBody_inPhase (s := setBlockCount (beginCommand s)) (p := .valid) (h := s.host)).symm
      have count : commandSteps s.desc = 1 + (1 + if blockCount s.desc.inLen = 0 then 2
          else 1 + blockCount s.desc.inLen * (4 * s.desc.rounds.toNat + 5) + 2) := by
        simp only [commandSteps, checked, fits, Bool.false_eq_true, if_false]
        split <;> omega
      rw [atIdle] at body
      rw [count]
      simp only [runCommand, desc, checked, fits, Bool.false_eq_true, if_false]
      exact valid.trans ((busyRun_ovfchk (s := beginCommand s) (h := s.host) ranges fits).trans body)

end

/-! The calls of the wrappers (R70). -/

section
variable {s : State} {d : Descriptor} {rest : List HostMove}

/-- A descriptor write that fits stores its value (R20). -/
theorem step_write_fits {r : DescReg} {v : Nat} (hl : s.listing = []) (hp : s.ph = .idle)
    (hh : s.host = .write (.desc r) v :: rest) (fits : v < 2 ^ r.width s.params) :
    step s = .next (writeDescriptor r v { s with host := rest }) := by
  rw [step_write_desc hl hp hh, descriptorWrite, if_pos fits]

/-- A row of descriptor writes that fit, one step each (R20). -/
theorem steps_writes {rs : List DescReg} (hl : s.listing = []) (hp : s.ph = .idle)
    (hh : s.host = rs.map (fun r => .write (.desc r) (d.get r)) ++ rest)
    (fits : ∀ r, d.get r < 2 ^ r.width s.params) :
    steps rs.length s = .next (rs.foldl (fun u r => writeDescriptor r (d.get r) u) { s with host := rest }) := by
  induction rs generalizing s with
  | nil =>
    rw [List.map_nil, List.nil_append] at hh
    rw [← hh]
    rfl
  | cons r rs ih =>
    rw [List.length_cons, steps, step_write_fits hl hp hh (fits r), andThen_next]
    exact ih (s := writeDescriptor r (d.get r) { s with host := rs.map (fun r => .write (.desc r) (d.get r)) ++ rest })
      hl hp rfl fits

/-- Descriptor writes change the descriptor and the flags alone (R20). -/
theorem foldl_writeDescriptor (rs : List DescReg) (d : Descriptor) (s : State) :
    rs.foldl (fun u r => writeDescriptor r (d.get r) u) s =
      { s with
        desc := rs.foldl (fun e r => e.set r (d.get r)) s.desc
        written := rs.foldl (fun w r => w.set r.number true) s.written } := by
  induction rs generalizing s with
  | nil => rfl
  | cons r rs ih => exact ih (writeDescriptor r (d.get r) s)

/-- Writing all ten registers sets the whole descriptor (R19). -/
theorem foldl_set_allDescRegs (e d : Descriptor) : allDescRegs.foldl (fun e r => e.set r (d.get r)) e = d := by
  simp [allDescRegs, Descriptor.set, Descriptor.get]

/-- Writing all ten registers sets every flag (R182). -/
theorem foldl_flags_allDescRegs (w : Vector Bool 10) :
    allDescRegs.foldl (fun w r => w.set r.number true) w = Vector.replicate 10 true := by
  ext i hi
  simp only [allDescRegs, List.foldl_cons, List.foldl_nil, DescReg.number, Vector.getElem_set, Vector.getElem_replicate]
  interval_cases i <;> rfl

/-- The state of a call whose ten registers are written, with the host's moves after START. -/
def readyFor (d : Descriptor) (rest : List HostMove) (s : State) : State :=
  { s with desc := d, written := Vector.replicate 10 true, host := rest }

/-- The ten writes of a call leave its descriptor, every register written (R70, R182). -/
theorem steps_descriptorWrites (hl : s.listing = []) (hp : s.ph = .idle) (hh : s.host = descriptorWrites d ++ rest)
    (fits : ∀ r, d.get r < 2 ^ r.width s.params) :
    steps 10 s = .next (readyFor d rest s) := by
  have run := steps_writes (rs := allDescRegs) hl hp hh fits
  rw [foldl_writeDescriptor, foldl_set_allDescRegs, foldl_flags_allDescRegs] at run
  exact run

/-- START on a written descriptor with legal ranges begins the command (R110, R182). -/
theorem step_start {v : Nat} (hl : s.listing = []) (hp : s.ph = .idle) (hh : s.host = .write .ctrl v :: rest)
    (hv : v % 2 = 1) (written : ∀ r, s.isWritten r = true) (ranges : LegalRanges s.params s.desc) :
    step s = .next (beginCommand { s with host := rest }) := by
  have start : startMove { s with host := rest } = .next (beginCommand { s with host := rest }) :=
    startMove_eq_next.2 ⟨firstUnwritten_eq_none.2 written, ranges, rfl⟩
  have quiet : ¬({ s with host := rest } : State).busy = true := by simpa using hp
  rw [step_host hl hh]
  exact (if_neg quiet).trans ((if_pos hv).trans start)

/-- The moves of a call up to START begin its command (R70). -/
theorem steps_startMoves (hl : s.listing = []) (hp : s.ph = .idle) (hh : s.host = startMoves d ++ rest)
    (fits : ∀ r, d.get r < 2 ^ r.width s.params) (ranges : LegalRanges s.params d) :
    steps 11 s = .next (beginCommand (readyFor d rest s)) := by
  rw [startMoves, List.append_assoc] at hh
  have written (r : DescReg) : (readyFor d ([.write .ctrl 1] ++ rest) s).isWritten r = true := by
    simp [readyFor, State.isWritten]
  have start := step_start (s := readyFor d ([.write .ctrl 1] ++ rest) s) hl hp rfl rfl written ranges
  rw [steps_add 10 1, steps_descriptorWrites hl hp hh fits, andThen_next, steps, start]
  rfl

end

/-- The moves of `encrypt`, and of `decrypt` where the lengths match, are the moves up to START and one move that ends the
call (R70). -/
theorem host_eq_startMoves {s : State} {v : Variant} {b : CallBuffers} {counter : Word}
    (h : s.host = encryptMoves v b counter ∨ s.host = decryptMoves v b counter ∧ b.output.len = b.input.len) :
    ∃ m, s.host = startMoves (callDescriptor v b counter) ++ [m] := by
  obtain h | ⟨h, len⟩ := h
  · exact ⟨_, h⟩
  · exact ⟨_, h.trans (if_neg (not_not.2 len))⟩

/-- Settles O59: ten writes that fit, then START. -/
theorem encryptWritesTheDescriptorAndStarts : Obligations.EncryptWritesTheDescriptorAndStarts := by
  intro s v b counter hl hp hh fits ranges
  obtain ⟨m, hm⟩ := host_eq_startMoves hh
  have rest : s.host.drop 11 = [m] := by rw [hm]; rfl
  rw [run_core, steps_startMoves hl hp hm fits ranges, rest]
  rfl

/-! The end of a call (R70, R122). -/

/-- What a call returns, of the command's result (R70). -/
def callReturn (onOk : Word → CallReturn) (before : CallReturn) : Result → CallReturn
  | .none => before
  | .ok c => onOk c
  | .err e => .failed e

/-- When the command has ended, the call returns (R70). -/
theorem finishCall_done {onOk : Word → CallReturn} {rest : List HostMove} {s : State} (hp : s.ph = .idle)
    (done : s.result ≠ .none) : finishCall onOk rest s =
      .next { s with host := rest, returned := callReturn onOk s.returned s.result } := by
  rw [finishCall, if_neg (by simpa using hp)]
  cases hr : s.result with
  | none => contradiction
  | ok c => rfl
  | err e => rfl

/-- The move that ends a call gives a busy engine its turn (R160). -/
theorem finishCall_busy {onOk : Word → CallReturn} {rest : List HostMove} {s : State} (hb : s.ph ≠ .idle) :
    finishCall onOk rest s = engineStep s :=
  if_pos (busy_eq_true.2 hb)

section
variable {s t : State} {d : Descriptor} {m : HostMove} {onOk : Word → CallReturn}

/-- After START the host waits until the sequencer has run the command (R117, R122). -/
theorem steps_command (hm : ∀ rest u, hostStep m rest u = finishCall onOk rest u) (hl : s.listing = [])
    (ranges : LegalRanges s.params d) : steps (commandSteps d) (beginCommand (readyFor d [m] s)) =
      andThen (runCommand (readyFor d [] s)) fun t => .next (t.inPhase .idle [m]) := by
  have run := busyRun_command (s := readyFor d [m] s) ranges
  have turn (u : State) (hu : surroundings u = surroundings (beginCommand (readyFor d [m] s))) (hb : u.ph ≠ .idle) :
      step u = engineStep u := by
    simp only [surroundings, Prod.mk.injEq] at hu
    obtain ⟨-, -, -, -, host, listing, -⟩ := hu
    rw [step_host (listing.trans hl) host, hm, finishCall_busy hb]
  exact (run.steps_eq turn).trans (runCommand_inPhase (s := readyFor d [] s) (p := s.ph) (h := [m]))

/-- The last step of a call (R70). -/
theorem steps_finish (hm : ∀ rest u, hostStep m rest u = finishCall onOk rest u) (hl : s.listing = [])
    (ht : runCommand (readyFor d [] s) = .next t) : steps 1 (t.inPhase .idle [m]) =
      .next { t with returned := callReturn onOk s.returned t.result } := by
  obtain ⟨idle, done⟩ := runCommand_ends ht
  have outside := runCommand_surroundings ht
  simp only [surroundings, Prod.mk.injEq] at outside
  obtain ⟨-, -, -, -, host, listing, -, returned, -⟩ := outside
  have same : t.inPhase .idle [] = t := by
    have eta : t.inPhase t.ph t.host = t := rfl
    rwa [idle, host] at eta
  have finish := finishCall_done (onOk := onOk) (rest := []) (s := t.inPhase .idle [m]) rfl done
  rw [steps, step_host (s := t.inPhase .idle [m]) (listing.trans hl) rfl, hm, finish, andThen_next, steps,
    show (t.inPhase .idle [m]).returned = s.returned from returned]
  exact congrArg (fun u : State => Host.Outcome.next { u with returned := callReturn onOk s.returned t.result }) same

/-- A whole call: the machine is where XFORM leaves it, and the call returns or fails (R70, R122). -/
theorem steps_call (hm : ∀ rest u, hostStep m rest u = finishCall onOk rest u) (hl : s.listing = []) (hp : s.ph = .idle)
    (hh : s.host = startMoves d ++ [m]) (fits : ∀ r, d.get r < 2 ^ r.width s.params) (ranges : LegalRanges s.params d) :
    steps (12 + commandSteps d) s = andThen (exec .xform (readyFor d [] s)) fun t =>
      .next { t with returned := callReturn onOk s.returned t.result } := by
  rw [show 12 + commandSteps d = 11 + (commandSteps d + 1) by omega, steps_add 11, steps_startMoves hl hp hh fits ranges,
    andThen_next, steps_add _ 1, steps_command hm hl ranges, andThen_assoc, exec,
    execXform_legal (s := readyFor d [] s) ranges]
  exact andThen_congr fun t ht => steps_finish hm hl ht

end

/-- Settles O60: both wrappers are `steps_call` with their own last move; the unequal lengths of `decrypt` fail at once. -/
theorem wrappersReturnTheCounterOrFail : Obligations.WrappersReturnTheCounterOrFail := by
  refine ⟨fun s v b counter hl hp fits ranges => ⟨fun hh => ?_, fun hh len => ?_⟩, fun s v b counter hl len hh => ?_⟩
  · rw [run_core]
    exact steps_call (fun _ _ => rfl) hl hp hh fits ranges
  · rw [run_core]
    exact steps_call (fun _ _ => rfl) hl hp (hh.trans (if_neg (not_not.2 len))) fits ranges
  · rw [decryptMoves, if_pos len] at hh
    exact step_host hl hh

end Sys2Proof.Machine
end

/-! ### The State Initializer: LDKN and INIT -/
section
namespace Sys2Proof.Machine

variable {s : State}

/-- R42: a word of data memory is the little-endian sum of its four bytes. -/
theorem memWord_toNat (m : Memory) (a : Nat) :
    (memWord m a).toNat = (memByte m a).toNat + 2 ^ 8 * (memByte m (a + 1)).toNat
      + 2 ^ 16 * (memByte m (a + 2)).toNat + 2 ^ 24 * (memByte m (a + 3)).toNat :=
  le32_toNat _ _ _ _

/-- LDKN latches when its 44 reads can be made (R80). -/
theorem exec_ldkn_of_accepted (accepted : firstFault s (loadAccesses s) = none) :
    exec .ldkn s = .next (latchWords s) :=
  loadKeyNonce_eq_next.2 ⟨accepted, rfl⟩

/-- R80: key word `i` is the memory word `4i` bytes into the key buffer. -/
theorem latchWords_k_getElem (i : Fin 8) : (latchWords s).k[i] = memWord s.mem (s.desc.keyAddr + 4 * i) := by
  rw [latchWords_k, Fin.getElem_fin, Vector.getElem_ofFn]

/-- R80: nonce word `i` is the memory word `4i` bytes into the nonce buffer. -/
theorem latchWords_n_getElem (i : Fin 3) : (latchWords s).n[i] = memWord s.mem (s.desc.nonceAddr + 4 * i) := by
  rw [latchWords_n, Fin.getElem_fin, Vector.getElem_ofFn]

/-- Settles O19: the reads are accepted, so LDKN latches the words of memory, which are little-endian sums. -/
theorem ldknLatchesLittleEndianWords : Obligations.LdknLatchesLittleEndianWords := by
  intro s key nonce
  refine ⟨latchWords s, exec_ldkn_of_accepted (loadAccesses_accepted.2 ⟨key, nonce⟩), rfl, fun i => ?_, fun i => ?_⟩
  · rw [latchWords_k_getElem, memWord_toNat]
  · rw [latchWords_n_getElem, memWord_toNat]

section
variable (k : Vector Word 8) (n : Vector Word 3) (ctr : Word)

/-- R81: the key words lie in lanes 4 to 11. -/
theorem initialWords_key (i : Fin 8) : (initialWords k n ctr).getD (4 + i) 0 = k[i] := by
  fin_cases i <;> rfl

/-- R81: the nonce words lie in lanes 13 to 15. -/
theorem initialWords_nonce (i : Fin 3) : (initialWords k n ctr).getD (13 + i) 0 = n[i] := by
  fin_cases i <;> rfl

end

/-- Settles O21: INIT leaves `initialWords` in S and in X (R81), whose lanes are read off its definition. -/
theorem initBuildsTheBlockState : Obligations.InitBuildsTheBlockState :=
  ⟨rfl, fun s => ⟨initialise s, rfl, rfl, rfl, rfl, rfl, initialWords_key s.k s.n s.ctr, rfl,
    initialWords_nonce s.k s.n s.ctr, fun _ => rfl, rfl⟩⟩

end Sys2Proof.Machine
end

/-! ### The quarter-round: its lines, its lanes, and the rounds it makes (R90 to R93, R99) -/
section
namespace Sys2Proof.Machine

/-! The quarter-round on values (R90). -/

/-- Bit `j` of a word is bit `(j + n) mod 32` of its rotation by `n` (R6). -/
theorem getElem_rotl (a : Word) (n : Nat) {j : Nat} (hj : j < 32) :
    (rotl a n)[(j + n) % 32]'(Nat.mod_lt _ (by decide)) = a[j] := by
  rw [rotl, BitVec.getElem_rotateLeft]
  split
  all_goals
    congr 1
    omega

theorem rotl_injective {a b : Word} {n : Nat} (h : rotl a n = rotl b n) : a = b := by
  ext j hj
  rw [← getElem_rotl a n hj, ← getElem_rotl b n hj]
  simp only [h]

/-- A line of the quarter-round can be undone, because the word it leaves alone is still there (R90). -/
theorem mixLine_injective {x y z x' y' z' : Word} {n : Nat} (kept : y = y')
    (sum : (mixLine x y z n).1 = (mixLine x' y' z' n).1) (mixed : (mixLine x y z n).2 = (mixLine x' y' z' n).2) :
    x = x' ∧ z = z' := by
  subst kept
  obtain rfl : x = x' := add_right_cancel sum
  exact ⟨rfl, (BitVec.xor_left_inj (x + y)).1 (rotl_injective mixed)⟩

/-- QRV is undone line by line, the last line first (R90 corner case (iii)). -/
theorem quarterRoundValues_injective {a b c d a' b' c' d' : Word}
    (h : quarterRoundValues a b c d = quarterRoundValues a' b' c' d') : (a, b, c, d) = (a', b', c', d') := by
  simp only [quarterRoundValues, Prod.mk.injEq] at h
  obtain ⟨ha, hb, hc, hd⟩ := h
  obtain ⟨hc, hb⟩ := mixLine_injective hd hc hb
  obtain ⟨ha, hd⟩ := mixLine_injective hb ha hd
  obtain ⟨hc, hb⟩ := mixLine_injective hd hc hb
  obtain ⟨ha, hd⟩ := mixLine_injective hb ha hd
  rw [ha, hb, hc, hd]

/-- Settles O23: QRV is injective, and the quadruples are finite in number. -/
theorem quarterRoundIsABijection : Obligations.QuarterRoundIsABijection :=
  ⟨by decide, Finite.injective_iff_bijective.1 fun _ _ h => quarterRoundValues_injective h⟩

/-! The lanes of the tuples (R71). -/

/-- The column round and the diagonal round, four tuples each (R91, R92). -/
def roundTuples : List (List (BitVec 4 × BitVec 4 × BitVec 4 × BitVec 4)) := [Config.tuples.take 4, Config.tuples.drop 4]

/-- The four lanes of a tuple. -/
def tupleLanes (t : BitVec 4 × BitVec 4 × BitVec 4 × BitVec 4) : List (Fin 16) :=
  [wordIndex t.1, wordIndex t.2.1, wordIndex t.2.2.1, wordIndex t.2.2.2]

section
variable {t u : BitVec 4 × BitVec 4 × BitVec 4 × BitVec 4} {ts : List (BitVec 4 × BitVec 4 × BitVec 4 × BitVec 4)}

theorem mem_tuples_iff : t ∈ Config.tuples ↔ ∃ ts ∈ roundTuples, t ∈ ts := by
  rw [← List.mem_flatten]
  rfl

theorem roundTuples_lanes : roundTuples.map (List.flatMap tupleLanes) =
    [[0, 4, 8, 12, 1, 5, 9, 13, 2, 6, 10, 14, 3, 7, 11, 15],
     [0, 5, 10, 15, 1, 6, 11, 12, 2, 7, 8, 13, 3, 4, 9, 14]] := rfl

/-- A round names no lane twice (R99). -/
theorem round_lanes_nodup (round : ts ∈ roundTuples) : (ts.flatMap tupleLanes).Nodup := by
  have rows : ∀ l ∈ roundTuples.map (List.flatMap tupleLanes), l.Nodup := by
    rw [roundTuples_lanes]
    decide
  exact rows _ (List.mem_map_of_mem round)

/-- The four lanes of a tuple of the table differ. -/
theorem tupleLanes_nodup (table : t ∈ Config.tuples) : (tupleLanes t).Nodup := by
  obtain ⟨ts, round, ht⟩ := mem_tuples_iff.1 table
  exact (List.nodup_flatMap.1 (round_lanes_nodup round)).1 t ht

/-- Two tuples of one round have no lane in common (R99). -/
theorem tupleLanes_disjoint (round : ts ∈ roundTuples) (ht : t ∈ ts) (hu : u ∈ ts) (ne : t ≠ u) :
    (tupleLanes t).Disjoint (tupleLanes u) :=
  have : Std.Symm (Function.onFun List.Disjoint tupleLanes) := ⟨fun _ _ h => h.symm⟩
  (List.nodup_flatMap.1 (round_lanes_nodup round)).2.forall ht hu ne

end

/-! The quarter-round on registers (R90). -/

/-- The word a quarter-round leaves in each register: one of QRV's four in the lanes named, the old one elsewhere. -/
theorem getElem_quarterRound (a b c d i : Fin 16) (x : Vector Word 16) : (quarterRound a b c d x)[i] =
    if d = i then (quarterRoundValues x[a] x[b] x[c] x[d]).2.2.2
    else if c = i then (quarterRoundValues x[a] x[b] x[c] x[d]).2.2.1
    else if b = i then (quarterRoundValues x[a] x[b] x[c] x[d]).2.1
    else if a = i then (quarterRoundValues x[a] x[b] x[c] x[d]).1
    else x[i] := by
  simp only [quarterRound, Fin.getElem_fin, Vector.getElem_set, Fin.val_inj]

section
variable {t u : BitVec 4 × BitVec 4 × BitVec 4 × BitVec 4} {i : Fin 16}

/-- A quarter-round leaves every register outside its lanes. -/
theorem quarterRoundAt_outside (x : Vector Word 16) (outside : i ∉ tupleLanes t) : (quarterRoundAt t x)[i] = x[i] := by
  simp only [tupleLanes, List.mem_cons, List.not_mem_nil, or_false, not_or] at outside
  obtain ⟨ha, hb, hc, hd⟩ := outside
  rw [quarterRoundAt, getElem_quarterRound, if_neg (Ne.symm hd), if_neg (Ne.symm hc), if_neg (Ne.symm hb),
    if_neg (Ne.symm ha)]

/-- What a quarter-round leaves in its lanes depends on its lanes alone. -/
theorem quarterRoundAt_congr {x y : Vector Word 16} (agree : ∀ j ∈ tupleLanes t, x[j] = y[j]) (inside : i ∈ tupleLanes t) :
    (quarterRoundAt t x)[i] = (quarterRoundAt t y)[i] := by
  have here := agree i inside
  simp only [tupleLanes, List.forall_mem_cons] at agree
  obtain ⟨ha, hb, hc, hd, -⟩ := agree
  simp only [quarterRoundAt, getElem_quarterRound, ha, hb, hc, hd, here]

/-- In the lanes of one quarter-round, another on other lanes may come after it or before it. -/
theorem quarterRoundAt_swap (x : Vector Word 16) (apart : (tupleLanes t).Disjoint (tupleLanes u))
    (inside : i ∈ tupleLanes t) : (quarterRoundAt u (quarterRoundAt t x))[i] = (quarterRoundAt t (quarterRoundAt u x))[i] := by
  rw [quarterRoundAt_outside _ (apart inside)]
  exact quarterRoundAt_congr (fun j hj => (quarterRoundAt_outside x (apart hj)).symm) inside

/-- Quarter-rounds on disjoint lanes commute (R99). -/
theorem quarterRoundAt_comm (apart : (tupleLanes t).Disjoint (tupleLanes u)) (x : Vector Word 16) :
    quarterRoundAt u (quarterRoundAt t x) = quarterRoundAt t (quarterRoundAt u x) := by
  suffices lane : ∀ i : Fin 16, (quarterRoundAt u (quarterRoundAt t x))[i] = (quarterRoundAt t (quarterRoundAt u x))[i] from
    Vector.ext fun i hi => lane ⟨i, hi⟩
  intro i
  by_cases ht : i ∈ tupleLanes t
  · exact quarterRoundAt_swap x apart ht
  · by_cases hu : i ∈ tupleLanes u
    · exact (quarterRoundAt_swap x apart.symm hu).symm
    · rw [quarterRoundAt_outside _ hu, quarterRoundAt_outside x ht, quarterRoundAt_outside _ ht, quarterRoundAt_outside x hu]

end

/-- Settles O22: the lanes of a legal tuple differ, so each register holds its word of QRV, whose lines are the assignments. -/
theorem qrMixesItsFourWords : Obligations.QrMixesItsFourWords := by
  intro s a b c d wf
  obtain ⟨⟨ab, ac, ad⟩, ⟨bc, bd⟩, cd⟩ : (wordIndex a ≠ wordIndex b ∧ wordIndex a ≠ wordIndex c ∧ wordIndex a ≠ wordIndex d) ∧
      (wordIndex b ≠ wordIndex c ∧ wordIndex b ≠ wordIndex d) ∧ wordIndex c ≠ wordIndex d := by
    simpa [tupleLanes] using tupleLanes_nodup (wf_qr.1 wf)
  refine ⟨_, exec_qrInstr (wf_qr.1 wf) s, rfl, fun i ha hb hc hd => ?_, _, _, _, _, rfl, rfl, rfl, rfl, ?_⟩
  · exact quarterRoundAt_outside s.x (by simp [tupleLanes, ha, hb, hc, hd])
  · simp only [mapX_x, quarterRoundAt, getElem_quarterRound, if_neg ab.symm, if_neg ac.symm, if_neg ad.symm,
      if_neg bc.symm, if_neg bd.symm, if_neg cd.symm, if_true]
    exact ⟨rfl, rfl, rfl, rfl⟩

/-! The QR words of one round (R91 to R93, R99). -/

section
variable {ts : List (BitVec 4 × BitVec 4 × BitVec 4 × BitVec 4)}

/-- Two QR words of one round run in either order (R99). -/
theorem exec_round_comm (round : ts ∈ roundTuples) {p q : Instr} (hp : p ∈ ts.map qrInstr) (hq : q ∈ ts.map qrInstr)
    (s : State) : ∃ t, andThen (exec p s) (exec q) = .next t ∧ andThen (exec q s) (exec p) = .next t := by
  obtain ⟨t, ht, rfl⟩ := List.mem_map.1 hp
  obtain ⟨u, hu, rfl⟩ := List.mem_map.1 hq
  have runs : ∀ v ∈ ts, ∀ s, exec (qrInstr v) s = .next (s.mapX (quarterRoundAt v)) := fun v hv =>
    exec_qrInstr (mem_tuples_iff.2 ⟨ts, round, hv⟩)
  obtain rfl | ne := eq_or_ne t u
  · exact ⟨_, by rw [runs t ht, andThen_next, runs t ht], by rw [runs t ht, andThen_next, runs t ht]⟩
  · have swap := funext (quarterRoundAt_comm (tupleLanes_disjoint round ht hu ne))
    exact ⟨_, by rw [runs t ht, andThen_next, runs u hu, mapX_mapX, swap],
      by rw [runs u hu, andThen_next, runs t ht, mapX_mapX]⟩

/-- A round as a listing leaves what its quarter-rounds leave one after another (R69, R72). -/
theorem run_round (round : ts ∈ roundTuples) (s : State) : Host.Core.run core ts.length (placeInstrs (ts.map qrInstr) s) =
    .next (placeInstrs [] (s.mapX fun x => ts.foldl (fun x t => quarterRoundAt t x) x)) := by
  rw [run_core, ← List.append_nil (ts.map qrInstr)]
  exact steps_quarterRounds (fun t ht => mem_tuples_iff.2 ⟨ts, round, ht⟩) (by simp) 0 s

end

theorem column_mem_roundTuples : Config.tuples.take 4 ∈ roundTuples := List.mem_cons_self

theorem diagonal_mem_roundTuples : Config.tuples.drop 4 ∈ roundTuples := List.mem_cons_of_mem _ List.mem_cons_self

/-- Settles O26: both words are words of the column round, or both of the diagonal round. -/
theorem lanesOfARoundCommute : Obligations.LanesOfARoundCommute := by
  rintro s p q (⟨hp, hq⟩ | ⟨hp, hq⟩)
  · exact exec_round_comm column_mem_roundTuples hp hq s
  · exact exec_round_comm diagonal_mem_roundTuples hp hq s

theorem columnRound_eq_foldl (x : Vector Word 16) :
    columnRound x = (Config.tuples.take 4).foldl (fun x t => quarterRoundAt t x) x := rfl

theorem diagonalRound_eq_foldl (x : Vector Word 16) :
    diagonalRound x = (Config.tuples.drop 4).foldl (fun x t => quarterRoundAt t x) x := rfl

/-- The words of the column round, written out (R91). -/
theorem columnRound_encode : ((Config.tuples.take 4).map qrInstr).map encode =
    [0x2000048C, 0x2000159D, 0x200026AE, 0x200037BF] := rfl

/-- The words of the diagonal round, written out (R92). -/
theorem diagonalRound_encode : ((Config.tuples.drop 4).map qrInstr).map encode =
    [0x200005AF, 0x200016BC, 0x2000278D, 0x2000349E] := rfl

/-- The double-round on the state is the column round, then the diagonal round (R93). -/
theorem mapX_doubleRound (s : State) : (s.mapX columnRound).mapX diagonalRound = s.mapX doubleRound :=
  mapX_mapX s columnRound diagonalRound

/-- Settles O25: COLR and DIAGR are the quarter-rounds of their tuples, and DROUND is one after the other. -/
theorem roundMacrosAreTheirExpansions : Obligations.RoundMacrosAreTheirExpansions := by
  intro s
  refine ⟨⟨s.mapX columnRound, rfl, rfl, ?_⟩, ⟨s.mapX diagonalRound, rfl, rfl, ?_⟩, s.mapX doubleRound, rfl, rfl,
    congrArg Host.Outcome.next (mapX_doubleRound s).symm⟩
  · rw [← columnRound_encode, funext columnRound_eq_foldl]
    exact run_round column_mem_roundTuples s
  · rw [← diagonalRound_encode, funext diagonalRound_eq_foldl]
    exact run_round diagonal_mem_roundTuples s

end Sys2Proof.Machine
end

/-! ### The feed-forward, the keystream block and its purity (R95 to R97, R101) -/
section
namespace Sys2Proof.Machine

open Sys2Proof.Safety

/-- R95: each lane of the feed-forward is a sum modulo 2^32. -/
theorem feedForward_toNat (x saved : Vector Word 16) (j : Fin 16) :
    ((feedForward x saved)[j]).toNat = ((x[j]).toNat + (saved[j]).toNat) % 2 ^ 32 := by
  rw [feedForward, Fin.getElem_fin, Vector.getElem_ofFn, BitVec.toNat_add]

/-- Settles O27: FFADD changes X alone, and each lane by `feedForward_toNat`. -/
theorem ffaddAddsTheOriginalState : Obligations.FfaddAddsTheOriginalState :=
  ⟨by decide, fun s => ⟨addSaved s, rfl, rfl, fun j => by rw [addSaved_x, feedForward_toNat]⟩⟩

/-- R96: byte `4j + k` of the keystream block is byte `k` of word `j`. -/
theorem serialise_getD (x : Vector Word 16) (j : Fin 16) (k : Fin 4) : (serialise x).getD (4 * j + k) 0 = byteOf k x[j] := by
  have inside : 4 * j.val + k < 64 := by omega
  have word : (4 * j.val + k) / 4 = j := by omega
  have byte : (4 * j.val + k) % 4 = k := by omega
  simp [serialise, Vector.getD, inside, word, byte]

/-- Settles O28: SER writes `serialise`, whose bytes are little-endian digits of their words. -/
theorem serWritesLittleEndianBytes : Obligations.SerWritesLittleEndianBytes :=
  ⟨by decide, fun s => ⟨serialiseX s, rfl, rfl, fun j k => by rw [serialiseX_ks, serialise_getD, byteOf_toNat]⟩⟩

/-- INIT leaves X = S, so with a legal ROUNDS BLOCK goes on (R81, R97). -/
theorem exec_init_block {s : State} (legal : s.desc.rounds = 8 ∨ s.desc.rounds = 12 ∨ s.desc.rounds = 20) :
    andThen (exec .init s) (exec .block) = .next (transformBlock (initialise s)) :=
  execBlock_eq_next.2 ⟨legal, rfl, rfl⟩

/-- The keystream block of a state is `Block` of its key, nonce, counter and rounds (R97). -/
theorem transformBlock_initialise_ks (s : State) :
    (transformBlock (initialise s)).ks = keystreamBlock s.k s.n s.ctr s.desc.rounds := by
  rw [transformBlock_ks, initialise_x, initialise_saved, initialise_desc, keystreamBlock]

/-- Settles O30: in both states the block is `keystreamBlock` of the same four arguments. -/
theorem keystreamBlockIsAPureFunction : Obligations.KeystreamBlockIsAPureFunction := by
  intro s s' key nonce counter rounds legal
  refine ⟨_, _, exec_init_block legal, exec_init_block (rounds ▸ legal), ?_, transformBlock_initialise_ks s⟩
  rw [transformBlock_initialise_ks, transformBlock_initialise_ks, key, nonce, counter, rounds]

end Sys2Proof.Machine
end

/-! ### What steers the sequencer after the checks (R100, R125) -/
section
namespace Sys2Proof.Machine

/-- The state with everything cleared but PC, NBLK, ROUNDS and IN_LEN. -/
def State.control (s : State) : State :=
  { State.reset with
    ph := s.ph
    blk := s.blk
    dr := s.dr
    qi := s.qi
    nblk := s.nblk
    desc := { Descriptor.reset with rounds := s.desc.rounds, inLen := s.desc.inLen } }

/-- What a word other than the two checks and XFORM does to PC before the move of PC. -/
def moveOfWord : Instr → State → State
  | .init, c => { c with dr := 0, qi := 0 }
  | .ret, c => { c with ph := .idle }
  | _, c => c

/-- The next control: the word issued, then the move of PC; an idle engine stays (R115). -/
def nextControl (c : State) : State :=
  match issue c with
  | some i => advance (moveOfWord i c)
  | none => c

variable {s t : State}

theorem control_eq {s s' : State} : s.control = s'.control ↔ s.ph = s'.ph ∧ s.blk = s'.blk ∧ s.dr = s'.dr ∧ s.qi = s'.qi ∧
    s.nblk = s'.nblk ∧ s.desc.inLen = s'.desc.inLen ∧ s.desc.rounds = s'.desc.rounds := by
  simp [State.control]

theorem issue_control (s : State) : issue s.control = issue s := rfl

/-- The move of PC looks at the control alone (R115). -/
theorem advance_control (s : State) : (advance s).control = advance s.control := by
  cases hp : s.ph with
  | ovf =>
    rw [advance_of_ovf hp, advance_of_ovf (s := s.control) hp, apply_ite State.control]
    rfl
  | qr =>
    rw [advance_of_qr hp, advance_of_qr (s := s.control) hp, advanceQr, advanceQr, apply_ite State.control,
      apply_ite State.control]
    rfl
  | inc =>
    rw [advance_of_inc hp, advance_of_inc (s := s.control) hp, advanceInc, advanceInc, apply_ite State.control]
    rfl
  | _ => simp [advance, hp, State.control]

/-- The words that are no checks treat the control alike in every state (R100). -/
theorem Effect.control {i : Instr} (h : Effect s i t) (valid : i ≠ .valid) (ovfchk : i ≠ .ovfchk) (xform : i ≠ .xform) :
    t.control = moveOfWord i s.control := by
  cases h with
  | validPass | validTrap | ovfchkPass | ovfchkTrap | xform => contradiction
  | _ => simp [State.control, moveOfWord]

/-- Past the checks the sequencer issues none (R115). -/
theorem issue_past_checks (valid : s.ph ≠ .valid) (ovf : s.ph ≠ .ovf) :
    issue s ≠ some .valid ∧ issue s ≠ some .ovfchk := by
  cases hp : s.ph with
  | valid | ovf => contradiction
  | xor =>
    constructor
    all_goals
      intro hi
      obtain ⟨m, hm⟩ := issue_of_xor hp hi
      cases hm
  | _ => simp [issue, hp, tupleInstr]

/-- Past the checks the next control is a function of the control (R100, R125). -/
theorem engineStep_control (valid : s.ph ≠ .valid) (ovf : s.ph ≠ .ovf) (h : engineStep s = .next t) :
    t.control = nextControl s.control := by
  obtain ⟨idle, rfl⟩ | ⟨i, u, hi, hu, rfl⟩ := engineStep_effect h
  · rw [nextControl, issue_control, issue, idle]
  · obtain ⟨notValid, notOvfchk⟩ := issue_past_checks valid ovf
    rw [hi] at notValid notOvfchk
    have effect := hu.control (mt (congrArg some) notValid) (mt (congrArg some) notOvfchk)
      fun hx => issue_ne_xform (hx ▸ hi)
    simp only [nextControl, issue_control, hi, advance_control, effect]

/-- Settles O50: the two states have one control, and the word issued and the next control are functions of it. -/
theorem controlFlowIsDataIndependent : Obligations.ControlFlowIsDataIndependent := by
  intro s s' t t' ph blk dr qi nblk rounds inLen valid ovf h h'
  have same : s.control = s'.control := control_eq.2 ⟨ph, blk, dr, qi, nblk, inLen, rounds⟩
  have next : t.control = t'.control := by
    rw [engineStep_control valid ovf h, engineStep_control (ph ▸ valid) (ph ▸ ovf) h', same]
  obtain ⟨ph', blk', dr', qi', nblk', -⟩ := control_eq.1 next
  refine ⟨?_, ph', blk', dr', qi', nblk'⟩
  rw [← issue_control s, ← issue_control s', same]

end Sys2Proof.Machine
end

/-! ### The sequencer's own words, and START (R110 to R115) -/
section
namespace Sys2Proof.Machine

open Sys2Proof.Safety

variable {s t : State}

/-- VALID passes when none of its checks fails (R111). -/
theorem exec_valid_pass (checked : entryError s.desc = none) : exec .valid s = .next s := by
  simp only [exec, execValid, checked]

/-- VALID takes the trap of its first check that fails (R111, R157). -/
theorem exec_valid_trap {e : Exc} (failed : entryError s.desc = some e) : exec .valid s = .next (takeTrap e s) := by
  simp only [exec, execValid, failed]

/-- OVFCHK writes the block count when the counter does not overflow (R112). -/
theorem exec_ovfchk_pass (fits : counterOverflows s.desc = false) : exec .ovfchk s = .next (setBlockCount s) := by
  simp [exec, execOvfchk, fits]

/-- OVFCHK takes the trap when the counter overflows (R112, R157). -/
theorem exec_ovfchk_trap (overflows : counterOverflows s.desc = true) :
    exec .ovfchk s = .next (takeTrap .counterOverflow s) := by
  simp [exec, execOvfchk, overflows]

theorem counterOverflows_eq_true {d : Descriptor} :
    counterOverflows d = true ↔ 2 ^ 32 - 1 < d.counter.toNat + (d.inLen + 63) / 64 := by
  rw [← Bool.not_eq_false, counterOverflows_eq_false, Nat.not_le]

/-- Settles O14: each clause is one branch of `entryError`, which names the trap VALID takes. -/
theorem validChecksInOrder : Obligations.ValidChecksInOrder := by
  intro s
  refine ⟨fun len => ?_, fun len nonce => ?_, fun len nonce key => ?_, fun len nonce key rounds => ?_,
    fun len nonce key rounds => ?_⟩
  · exact exec_valid_trap (by simp [entryError, len])
  · exact exec_valid_trap (by simp [entryError, len, nonce, Config.nonceSize])
  · exact exec_valid_trap (by simp [entryError, len, nonce, key, Config.nonceSize, Config.keySize])
  · exact exec_valid_trap
      (by simp [entryError, len, nonce, key, legalRounds_eq_false.2 rounds, Config.nonceSize, Config.keySize])
  · exact exec_valid_pass (entryError_eq_none.2 ⟨len, nonce, key, rounds⟩)

/-- Settles O15: the sum on naturals decides between the count, which then fits NBLK, and the trap; a command without bytes has
the sum COUNTER. -/
theorem ovfchkCountsBlocksOrTraps : Obligations.OvfchkCountsBlocksOrTraps := by
  refine ⟨by decide, fun s => ⟨fun fits => ?_, fun overflows => ?_, fun empty => ?_⟩⟩
  · have fits := counterOverflows_eq_false.2 fits
    exact ⟨setBlockCount s, exec_ovfchk_pass fits, setBlockCount_toNat fits, rfl⟩
  · exact exec_ovfchk_trap (counterOverflows_eq_true.2 overflows)
  · have fits : counterOverflows s.desc = false := by
      rw [counterOverflows_eq_false, empty]
      exact Nat.le_pred_of_lt s.desc.counter.isLt
    rw [exec_ovfchk_pass fits, setBlockCount, empty]
    rfl

/-- Settles O16: CTR of a block that is left is below COUNTER plus the block count, which does not overflow. -/
theorem ctrincAdvancesWithoutWrap : Obligations.CtrincAdvancesWithoutWrap := by
  refine ⟨fun s => ⟨advanceCounter s, rfl, ?_, rfl⟩, fun s inv ph => ?_⟩
  · rw [advanceCounter_ctr, BitVec.toNat_add]
    rfl
  · have run := inv.inBlock (by rw [ph]; rfl)
    have counter := run.counter
    have left := run.left
    have noOverflow := run.noOverflow
    omega

/-- Settles O17: RET answers `endCommand`; past the loop BLK is the block count, and CTR is COUNTER plus BLK. -/
theorem retReportsTheCounter : Obligations.RetReportsTheCounter := by
  refine ⟨by decide, fun s => ⟨endCommand s, rfl, rfl, rfl, rfl, rfl, rfl, rfl⟩, fun s inv ph => ?_⟩
  have run := inv.finished (.inr ph)
  have counter : s.ctr.toNat = s.desc.counter.toNat + s.nblk.toNat := by rw [run.counter, run.done]
  exact ⟨by rw [counter, run.blocks], counter ▸ run.noOverflow⟩

/-- A busy engine with legal ranges runs the word it issues, then moves PC (R115). -/
theorem engineStep_of_issue {i : Instr} (busy : s.ph ≠ .idle) (ranges : LegalRanges s.params s.desc)
    (hi : issue s = some i) : engineStep s = andThen (exec i s) fun u => .next (advance u) := by
  simp only [engineStep, if_neg busy, rangeRefusal_eq_none.2 ranges, hi]

/-- Settles O10: alone, the engine has the turn. -/
theorem sequencerStepRunsTheIssuedWord : Obligations.SequencerStepRunsTheIssuedWord := by
  intro s i alone busy hi ranges
  rw [step_alone alone, engineStep_of_issue busy ranges hi]

/-- Settles O53: an odd value is START, on a descriptor that START accepts; an even one is no move of the engine. -/
theorem startBeginsTheCommand : Obligations.StartBeginsTheCommand := by
  refine ⟨fun s rest v hl hh hv ph written ranges => step_start hl ph hh hv written ranges, fun s rest v hl hh hv ph => ?_⟩
  have quiet : ({ s with host := rest } : State).busy = false := busy_eq_false.2 ph
  rw [step_host hl hh]
  simp only [hostStep, hostWrite, quiet, hv, Bool.false_eq_true, if_false, Nat.zero_ne_one]

end Sys2Proof.Machine
end

/-! ### The sequencer against XFORM, step by step (R117) -/
section
namespace Sys2Proof.Machine

open Sys2Proof.Safety

variable {s t u : State} {d : Descriptor}

/-! The number of control words (R117). -/

/-- A command is accepted when neither VALID nor OVFCHK takes the trap (R182). -/
theorem accepted_iff : Accepted d ↔ entryError d = none ∧ counterOverflows d = false := by
  rw [entryError_eq_none, counterOverflows_eq_false]
  constructor
  · rintro ⟨lengths, nonce, key, rounds, counter⟩
    exact ⟨⟨lengths, nonce, key, rounds⟩, counter⟩
  · rintro ⟨⟨lengths, nonce, key, rounds⟩, counter⟩
    exact ⟨lengths, nonce, key, rounds, counter⟩

theorem commandSteps_of_entryError {e : Exc} (failed : entryError d = some e) : commandSteps d = 1 := by
  simp only [commandSteps, failed]

theorem commandSteps_of_overflow (checked : entryError d = none) (overflows : counterOverflows d = true) :
    commandSteps d = 2 := by
  simp only [commandSteps, checked, overflows, if_true]

theorem commandSteps_of_accepted (h : Accepted d) : commandSteps d =
    if blockCount d.inLen = 0 then 4 else 5 + blockCount d.inLen * (4 * d.rounds.toNat + 5) := by
  obtain ⟨checked, fits⟩ := accepted_iff.1 h
  simp only [commandSteps, checked, fits, Bool.false_eq_true, if_false]

/-- A command has blocks when it has bytes (R112). -/
theorem blockCount_eq_zero {len : Nat} : blockCount len = 0 ↔ len = 0 := by
  rw [blockCount, Config.blockSize]
  omega

/-- Every command issues a control word: VALID. -/
theorem commandSteps_pos (d : Descriptor) : 0 < commandSteps d := by
  cases checked : entryError d with
  | some e => exact commandSteps_of_entryError checked ▸ Nat.one_pos
  | none =>
    cases fits : counterOverflows d with
    | true => exact commandSteps_of_overflow checked fits ▸ Nat.two_pos
    | false =>
      rw [commandSteps_of_accepted (accepted_iff.2 ⟨checked, fits⟩)]
      split <;> omega

/-! The run from START. -/

/-- Alone, the engine has the turn for the whole of its command (R8, R115). -/
theorem engine_turn (alone : EngineAlone s) (hu : surroundings u = surroundings (beginCommand s)) : step u = engineStep u := by
  obtain ⟨listing, host⟩ := alone
  simp only [surroundings, Prod.mk.injEq, beginCommand_host, beginCommand_listing] at hu
  obtain ⟨-, -, -, -, hh, hl, -⟩ := hu
  exact step_alone ⟨hl.trans listing, hh.trans host⟩

/-- With illegal ranges the command stops at its first control word, as XFORM does (R191; log 7). -/
theorem steps_beginCommand_illegal (alone : EngineAlone s) {r : Refusal} (hr : rangeRefusal s = some r) (k : Nat) :
    steps (k + 1) (beginCommand s) = .refused r := by
  have word : engineStep (beginCommand s) = .refused r := by
    simp only [engineStep, show rangeRefusal (beginCommand s) = some r from hr, beginCommand_ph, reduceCtorEq, if_false]
  rw [steps, engine_turn alone rfl, word, andThen_refused]

/-- The run of a command from START has the outcome of XFORM, which stops on illegal ranges as the first word does (R117). -/
theorem steps_command_eq_xform (alone : EngineAlone s) : steps (commandSteps s.desc) (beginCommand s) = exec .xform s := by
  by_cases ranges : LegalRanges s.params s.desc
  · rw [(busyRun_command ranges).steps_eq fun u hu _ => engine_turn alone hu]
    exact (execXform_legal ranges).symm
  · obtain ⟨r, hr⟩ := rangeRefusal_of_illegal ranges
    obtain ⟨k, hk⟩ := Nat.exists_eq_add_of_lt (commandSteps_pos s.desc)
    rw [hk, steps_beginCommand_illegal alone hr]
    simp only [exec, execXform, hr]

/-- Settles O39, by `steps_command_eq_xform`. -/
theorem sequencerAgreesWithXform : Obligations.SequencerAgreesWithXform := fun s alone => by
  rw [run_core, steps_command_eq_xform alone]

/-- A busy run is busy before its last step. -/
theorem BusyRun.busy_of_lt {j k : Nat} {o : Host.Outcome State Fault Refusal} (h : BusyRun k s o)
    (turn : ∀ v, surroundings v = surroundings s → step v = engineStep v) (hj : j < k) (hu : steps j s = .next u) :
    u.ph ≠ .idle := by
  induction h generalizing j with
  | done s => cases hj
  | more busy rest ih =>
    cases j with
    | zero => exact Host.Outcome.next.inj hu ▸ busy
    | succ j =>
      rw [steps, turn _ rfl] at hu
      obtain ⟨v, hv, hu⟩ := andThen_eq_next.1 hu
      exact ih v hv (fun w hw => turn w (hw.trans (engineStep_surroundings hv))) (Nat.lt_of_succ_lt_succ hj) hu

/-- A command is busy before its last control word; one with illegal ranges has no state after the first (R117). -/
theorem busy_before_last_word (alone : EngineAlone s) {k : Nat} (hk : k < commandSteps s.desc)
    (hu : steps k (beginCommand s) = .next u) : u.ph ≠ .idle := by
  by_cases ranges : LegalRanges s.params s.desc
  · exact (busyRun_command ranges).busy_of_lt (fun v hv => engine_turn alone hv) hk hu
  · obtain ⟨r, hr⟩ := rangeRefusal_of_illegal ranges
    cases k with
    | zero => exact Host.Outcome.next.inj hu ▸ nofun
    | succ k =>
      rw [steps_beginCommand_illegal alone hr] at hu
      cases hu

/-- DONE is that there is a result (R22, R23). -/
theorem done_eq_true : s.done = true ↔ s.result ≠ .none := by
  cases h : s.result <;> simp [State.done, h]

/-- XFORM ends idle and done (R116). -/
theorem xform_ends (h : exec .xform s = .next t) : t.ph = .idle ∧ t.done = true := by
  by_cases ranges : LegalRanges s.params s.desc
  · obtain ⟨ph, result⟩ := runCommand_ends ((execXform_legal ranges).symm.trans h)
    exact ⟨ph, done_eq_true.2 result⟩
  · obtain ⟨r, hr⟩ := execXform_illegal ranges
    cases hr.symm.trans h

/-- Settles O40: busy before the last word by the run's own shape, idle after it as XFORM is; the counts are the branches of
`commandSteps`. -/
theorem commandIsBusyUntilItsLastStep : Obligations.CommandIsBusyUntilItsLastStep := by
  refine ⟨fun s u k alone hk hu => ?_, fun s u alone hu => ?_, fun s failed => ?_, fun s checks overflows => ?_,
    fun s h empty => ?_, fun s h bytes => ?_⟩
  · rw [run_core] at hu
    exact busy_eq_true.2 (busy_before_last_word alone hk hu)
  · rw [run_core, steps_command_eq_xform alone] at hu
    exact xform_ends hu
  · obtain ⟨e, he⟩ := Option.ne_none_iff_exists'.1 (mt entryError_eq_none.1 failed)
    exact commandSteps_of_entryError he
  · exact commandSteps_of_overflow (entryError_eq_none.2 checks) (counterOverflows_eq_true.2 overflows)
  · rw [commandSteps_of_accepted h, if_pos (blockCount_eq_zero.2 empty)]
  · rw [commandSteps_of_accepted h, if_neg (mt blockCount_eq_zero.1 bytes.ne')]
    rfl

end Sys2Proof.Machine
end

/-! ### The table of the sequencer, the byte count of a block, and progress (R115, R123, R124) -/
section
namespace Sys2Proof.Machine

open Sys2Proof.Safety

variable {s t : State}

/-! What a step leaves of PC (R115). -/

/-- A word of the sequencer leaves PH, unless it ends the command (R114, R157). -/
theorem Effect.ph_cases {i : Instr} (h : Effect s i t) (hi : i ≠ .xform) : t.ph = s.ph ∨ t.ph = .idle := by
  cases h with
  | validTrap | ovfchkTrap | ret => exact .inr rfl
  | xform => exact absurd rfl hi
  | _ => simp

/-- Only P_INIT issues INIT. -/
theorem issue_init (h : issue s = some .init) : s.ph = .init := by
  cases hp : s.ph with
  | init => rfl
  | xor =>
    obtain ⟨m, hm⟩ := issue_of_xor hp h
    cases hm
  | _ => simp [issue, hp, tupleInstr] at h

/-- The move of PC counts the blocks in P_INC only. -/
theorem advance_blk (h : s.ph ≠ .inc) : (advance s).blk = s.blk := by
  cases hp : s.ph with
  | inc => exact absurd hp h
  | ovf => rw [advance_of_ovf hp]; split <;> rfl
  | qr =>
    rw [advance_of_qr hp, advanceQr]
    split
    · rfl
    · split <;> rfl
  | _ => simp [advance, hp]

/-- The move of PC counts the rounds in P_QR only. -/
theorem advance_round (h : s.ph ≠ .qr) : (advance s).dr = s.dr ∧ (advance s).qi = s.qi := by
  cases hp : s.ph with
  | qr => exact absurd hp h
  | ovf => rw [advance_of_ovf hp]; split <;> exact ⟨rfl, rfl⟩
  | inc => rw [advance_of_inc hp, advanceInc]; split <;> exact ⟨rfl, rfl⟩
  | _ => simp [advance, hp]

/-- BLK changes in P_INC only. -/
theorem engineStep_blk (h : engineStep s = .next t) (inc : s.ph ≠ .inc) : t.blk = s.blk := by
  by_cases busy : s.ph = .idle
  · rw [engineStep_idle busy] at h
    exact Host.Outcome.next.inj h ▸ rfl
  · obtain ⟨-, i, u, hi, hu, rfl⟩ := engineStep_busy_cases busy h
    have notXform : i ≠ .xform := fun hx => issue_ne_xform (hx ▸ hi)
    obtain ⟨-, -, -, -, -, blk, -⟩ := wordsLeaveWhatTheyDoNotName i s u hu
    rw [advance_blk, blk notXform]
    obtain hp | hp := (exec_effect hu).ph_cases notXform <;> simp [hp, inc]

/-- DR and QI change in P_QR and P_INIT only. -/
theorem engineStep_round (h : engineStep s = .next t) (qr : s.ph ≠ .qr) (init : s.ph ≠ .init) :
    t.dr = s.dr ∧ t.qi = s.qi := by
  by_cases busy : s.ph = .idle
  · rw [engineStep_idle busy] at h
    exact Host.Outcome.next.inj h ▸ ⟨rfl, rfl⟩
  · obtain ⟨-, i, u, hi, hu, rfl⟩ := engineStep_busy_cases busy h
    have notXform : i ≠ .xform := fun hx => issue_ne_xform (hx ▸ hi)
    have notInit : i ≠ .init := fun hx => init (issue_init (hx ▸ hi))
    obtain ⟨-, -, -, -, -, -, -, -, round, -⟩ := wordsLeaveWhatTheyDoNotName i s u hu
    have quiet : u.ph ≠ .qr := by obtain hp | hp := (exec_effect hu).ph_cases notXform <;> simp [hp, qr]
    rw [← (round notInit notXform).1, ← (round notInit notXform).2]
    exact advance_round quiet

/-! The rows of the table with more than one next phase. -/

/-- Row P_VALID. -/
theorem engineStep_valid (ph : s.ph = .valid) (h : engineStep s = .next t) :
    t.ph = .ovf ∧ t.result = s.result ∨ t.ph = .idle ∧ ∃ e, t.result = .err e := by
  obtain ⟨u, hu, rfl⟩ := engineStep_issued (by rw [issue, ph]) h
  cases hu with
  | validPass => rw [advance_of_valid ph]; exact .inl ⟨rfl, rfl⟩
  | validTrap e => exact .inr ⟨rfl, e, rfl⟩

/-- Row P_OVF. -/
theorem engineStep_ovf (ph : s.ph = .ovf) (h : engineStep s = .next t) :
    t.ph = (if t.nblk = 0 then .wipe else .load) ∧ t.result = s.result ∨ t.ph = .idle ∧ ∃ e, t.result = .err e := by
  obtain ⟨u, hu, rfl⟩ := engineStep_issued (by rw [issue, ph]) h
  cases hu with
  | ovfchkPass =>
    rw [advance_of_ovf ((setBlockCount_ph s).trans ph)]
    by_cases noBlock : (setBlockCount s).nblk = 0
    · rw [if_pos noBlock]
      exact .inl ⟨(if_pos noBlock).symm, rfl⟩
    · rw [if_neg noBlock]
      exact .inl ⟨(if_neg noBlock).symm, rfl⟩
  | ovfchkTrap => exact .inr ⟨rfl, _, rfl⟩

/-- Row P_QR: QI counts to 7, then DR counts the double-rounds, and after the last of them come the feed-forward and zeros. -/
def RoundRow (s t : State) : Prop :=
  (s.qi.toNat < 7 → t.ph = .qr ∧ t.qi.toNat = s.qi.toNat + 1 ∧ t.dr = s.dr) ∧
  (s.qi.toNat = 7 → t.qi = 0 ∧
    (s.dr.toNat + 1 = s.desc.rounds.toNat / 2 → t.ph = .ffadd ∧ t.dr = 0) ∧
    (s.dr.toNat + 1 ≠ s.desc.rounds.toNat / 2 → t.ph = .qr ∧ t.dr.toNat = s.dr.toNat + 1))

/-- The move of PC in P_QR follows the row; DR does not wrap, because a command has at most ten double-rounds. -/
theorem advanceQr_roundRow (bound : s.dr.toNat ≤ 9) (ph : s.ph = .qr) : RoundRow s (advanceQr s) := by
  refine ⟨fun more => ?_, fun last => ?_⟩
  · have qi : s.qi ≠ 7 := by bv_omega
    rw [advanceQr, if_pos qi]
    exact ⟨ph, by simp only; bv_omega, rfl⟩
  · have qi : s.qi = 7 := by bv_omega
    rw [advanceQr, if_neg (not_not.2 qi), doubleRoundCount]
    by_cases done : s.dr.toNat + 1 = s.desc.rounds.toNat / 2
    · rw [if_pos done]
      exact ⟨rfl, fun _ => ⟨rfl, rfl⟩, fun more => absurd done more⟩
    · rw [if_neg done]
      exact ⟨rfl, fun same => absurd same done, fun _ => ⟨ph, by simp only; bv_omega⟩⟩

theorem engineStep_qr (inv : EngineInv s) (ph : s.ph = .qr) (h : engineStep s = .next t) : RoundRow s t := by
  obtain ⟨u, ⟨⟩, rfl⟩ := engineStep_issued (by rw [issue, ph, tupleInstr]) h
  rw [advance_of_qr ((mapX_ph s _).trans ph)]
  exact advanceQr_roundRow (s := s.mapX _) inv.roundBound ph

/-- Row P_INC: BLK does not wrap, because a block is left. -/
theorem engineStep_inc (inv : EngineInv s) (ph : s.ph = .inc) (h : engineStep s = .next t) :
    t.blk.toNat = s.blk.toNat + 1 ∧ t.ph = (if s.blk.toNat + 1 = s.nblk.toNat then .wipe else .init) := by
  have left := inv.blockLeft (by rw [ph]; rfl)
  have next : (s.blk + 1).toNat = s.blk.toNat + 1 := by bv_omega
  obtain ⟨u, ⟨⟩, rfl⟩ := engineStep_issued (by rw [issue, ph]) h
  rw [advance_of_inc ((advanceCounter_ph s).trans ph), advanceInc, advanceCounter_blk, advanceCounter_nblk]
  by_cases last : s.blk.toNat + 1 = s.nblk.toNat
  · rw [if_pos last, if_pos last]
    exact ⟨next, rfl⟩
  · rw [if_neg last, if_neg last]
    exact ⟨next, rfl⟩

/-- Settles O12: the word of each phase is `issue`'s, and the move of PC after it is that phase's branch of `advance`. -/
theorem sequencerFollowsItsTable : Obligations.SequencerFollowsItsTable := by
  intro s t inv h
  refine ⟨fun ph => ?_, fun ph => ⟨by rw [issue, ph], engineStep_valid ph h⟩,
    fun ph => ⟨by rw [issue, ph], engineStep_ovf ph h⟩, fun ph => ?_, fun ph => ?_,
    fun ph => ⟨by rw [issue, ph], engineStep_qr inv ph h⟩, fun ph => ?_, fun ph => ?_, fun ph => ?_,
    fun ph => ⟨by rw [issue, ph], engineStep_inc inv ph h⟩, fun ph => ?_, fun ph => ?_, engineStep_blk h,
    engineStep_round h⟩
  · rw [engineStep_idle ph] at h
    exact (Host.Outcome.next.inj h).symm
  · have word : issue s = some .ldkn := by rw [issue, ph]
    obtain ⟨u, ⟨⟩, rfl⟩ := engineStep_issued word h
    exact ⟨word, by rw [advance_of_load ((latchWords_ph s).trans ph)]⟩
  · have word : issue s = some .init := by rw [issue, ph]
    obtain ⟨u, ⟨⟩, rfl⟩ := engineStep_issued word h
    rw [advance_of_init ((initialise_ph s).trans ph)]
    exact ⟨word, rfl, rfl, rfl⟩
  · have word : issue s = some .ffadd := by rw [issue, ph]
    obtain ⟨u, ⟨⟩, rfl⟩ := engineStep_issued word h
    exact ⟨word, by rw [advance_of_ffadd ((addSaved_ph s).trans ph)]⟩
  · have word : issue s = some .ser := by rw [issue, ph]
    obtain ⟨u, ⟨⟩, rfl⟩ := engineStep_issued word h
    exact ⟨word, by rw [advance_of_ser ((serialiseX_ph s).trans ph)]⟩
  · obtain ⟨hp, -⟩ | ⟨i, u, hi, hu, rfl⟩ := engineStep_effect h
    · cases hp.symm.trans ph
    · obtain ⟨m, rfl⟩ := issue_of_xor ph hi
      cases hu
      exact ⟨⟨m, hi⟩, by rw [advance_of_xor (s := { s with mem := overlayMem s m.toNat }) ph]⟩
  · have word : issue s = some .wipe := by rw [issue, ph]
    obtain ⟨u, ⟨⟩, rfl⟩ := engineStep_issued word h
    exact ⟨word, by rw [advance_of_wipe ((wipeRegisters_ph s).trans ph)]⟩
  · have word : issue s = some .ret := by rw [issue, ph]
    obtain ⟨u, ⟨⟩, rfl⟩ := engineStep_issued word h
    exact ⟨word, rfl⟩

/-! The bytes of the current block (R123). -/

/-- In the block loop the sequencer is where XFORM's loop is, with a block left. -/
theorem loopInv_of_inBlock (h : InBlock s) : ∃ r, LoopInv s (r + 1) := by
  obtain ⟨-, -, -, rounds⟩ := entryError_eq_none.1 h.checked
  have left := h.left
  exact ⟨s.nblk.toNat - s.blk.toNat - 1, h.ranges, rounds, h.blocks, by omega⟩

/-- The blocks before the last end at multiples of 64, the last at IN_LEN; each has from 1 to 64 bytes. -/
theorem LoopInv.blockBytes_end {r : Nat} (inv : LoopInv s (r + 1)) :
    64 * s.blk.toNat + blockBytes s = min (64 * (s.blk.toNat + 1)) s.desc.inLen ∧ 64 * s.blk.toNat < s.desc.inLen := by
  have blocks := inv.blocks
  have left := inv.left
  unfold blockCount Config.blockSize at blocks
  unfold blockBytes Config.blockSize
  split <;> omega

/-- Settles O13: P_XOR's operand is R123's byte count, and IN_LEN lies in the last block, at its end at the latest. -/
theorem overlayByteCount : Obligations.OverlayByteCount := by
  intro s inv ph
  have run := inv.inBlock (by rw [ph]; rfl)
  obtain ⟨r, loop⟩ := loopInv_of_inBlock run
  obtain ⟨m, hi, -⟩ := loop.issue_xor ph
  obtain ⟨-, count⟩ := issue_xorb hi
  obtain ⟨last, -⟩ := loop.blockBytes_end
  have blocks := run.blocks
  have left := run.left
  exact ⟨m, hi, by omega, by omega, fun _ => by omega, fun _ => ⟨by omega, by split <;> omega⟩⟩

/-! Progress (R48, R124). -/

/-- The ranges of a command keep each of its blocks from overlapping partially (R45). -/
theorem LoopInv.block_apart {r : Nat} (inv : LoopInv s (r + 1)) :
    overlapsPartially (inByteAddr s 0) (outByteAddr s 0) (blockBytes s) = false := by
  obtain ⟨-, -, -, -, inOut, -, -⟩ := inv.ranges
  obtain ⟨last, bytes⟩ := inv.blockBytes_end
  rw [overlapsPartially_eq_false]
  simp only [inByteAddr, outByteAddr, Config.blockSize]
  omega

theorem LoopInv.overlayRefusal_eq_none {r : Nat} (inv : LoopInv s (r + 1)) : overlayRefusal s (blockBytes s) = none := by
  obtain ⟨-, -, -, -, inOut, -, -⟩ := inv.ranges
  simp [overlayRefusal, overlapsPartially_eq_false.2 inOut, inv.block_apart]

/-- The memory accepts the accesses to the bytes of the current block (R48). -/
def AcceptsBlock (s : State) : Prop := ∀ i < blockBytes s,
  accessFault s .read (inByteAddr s i) = none ∧ accessFault s .write (outByteAddr s i) = none

/-- The overlay of a block runs when memory accepts it (R140). -/
theorem LoopInv.overlay_eq {r : Nat} (inv : LoopInv s (r + 1)) (accepted : AcceptsBlock s) :
    overlay (blockBytes s) s = .next { s with mem := overlayMem s (blockBytes s) } :=
  overlay_eq_next.2 ⟨inv.overlayRefusal_eq_none, overlayAccesses_accepted.2 accepted, rfl⟩

/-- The bytes of the current block are bytes of the command's buffers. -/
theorem LoopInv.acceptsBlock {r : Nat} (inv : LoopInv s (r + 1)) (acc : MemoryAccepts s) : AcceptsBlock s := by
  intro i hi
  obtain ⟨last, -⟩ := inv.blockBytes_end
  rw [inByteAddr, outByteAddr, Config.blockSize, Nat.add_assoc, Nat.add_assoc]
  exact ⟨acc.input _ (by omega), acc.output _ (by omega)⟩

/-- In every busy state that meets the invariant the sequencer has a word to issue (R115). -/
theorem issue_of_busy (inv : EngineInv s) (busy : s.ph ≠ .idle) : ∃ i, issue s = some i := by
  cases ph : s.ph with
  | idle => exact absurd ph busy
  | xor =>
    obtain ⟨r, loop⟩ := loopInv_of_inBlock (inv.inBlock (by rw [ph]; rfl))
    obtain ⟨m, hi, -⟩ := loop.issue_xor ph
    exact ⟨_, hi⟩
  | _ => exact ⟨_, by rw [issue, ph]⟩

/-- Where memory accepts the command's accesses, the word it issues goes on (R48, R124). -/
theorem exec_issued (inv : EngineInv s) (acc : MemoryAccepts s) {i : Instr} (hi : issue s = some i) :
    ∃ u, exec i s = .next u := by
  cases ph : s.ph with
  | xor =>
    obtain ⟨r, loop⟩ := loopInv_of_inBlock (inv.inBlock (by rw [ph]; rfl))
    obtain ⟨m, hm, he⟩ := loop.issue_xor ph
    obtain rfl := Option.some.inj (hi.symm.trans hm)
    exact ⟨_, (he s).trans (loop.overlay_eq (loop.acceptsBlock acc))⟩
  | valid =>
    obtain rfl := Option.some.inj (hi.symm.trans (by rw [issue, ph]))
    cases checked : entryError s.desc with
    | none => exact ⟨_, exec_valid_pass checked⟩
    | some e => exact ⟨_, exec_valid_trap checked⟩
  | ovf =>
    obtain rfl := Option.some.inj (hi.symm.trans (by rw [issue, ph]))
    cases fits : counterOverflows s.desc with
    | false => exact ⟨_, exec_ovfchk_pass fits⟩
    | true => exact ⟨_, exec_ovfchk_trap fits⟩
  | load =>
    obtain rfl := Option.some.inj (hi.symm.trans (by rw [issue, ph]))
    exact ⟨_, exec_ldkn_of_accepted (loadAccesses_accepted.2 ⟨acc.key, acc.nonce⟩)⟩
  | qr =>
    obtain rfl : i = qrInstr (tupleAt s.qi) := Option.some.inj (hi.symm.trans (by rw [issue, ph]; rfl))
    exact ⟨_, exec_qrInstr (tupleAt_mem s.qi) s⟩
  | idle => simp [issue, ph] at hi
  | _ =>
    simp only [issue, ph, Option.some.injEq] at hi
    subst hi
    exact ⟨_, rfl⟩

/-- A sequence is refused where one of its parts is. -/
theorem andThen_eq_refused {o : Host.Outcome State Fault Refusal} {f : State → Host.Outcome State Fault Refusal}
    {r : Refusal} : andThen o f = .refused r ↔ o = .refused r ∨ ∃ u, o = .next u ∧ f u = .refused r := by
  cases o <;> simp [andThen]

/-- The only refusal of the overlay is for an overlap (R140). -/
theorem overlay_refused {m : Nat} {r : Refusal} (h : overlay m s = .refused r) : r = .inputOutputOverlap := by
  unfold overlay at h
  split at h
  · rename_i refusal
    unfold overlayRefusal at refusal
    split at refusal
    · exact (Host.Outcome.refused.inj h).symm.trans (Option.some.inj refusal).symm
    · cases refusal
  · split at h <;> cases h

/-- The only refusal of a word the sequencer issues is for an overlap: QR and XORB have legal operands. -/
theorem exec_issued_refused {i : Instr} {r : Refusal} (hi : issue s = some i) (h : exec i s = .refused r) :
    r = .inputOutputOverlap := by
  obtain ⟨wf, primitive⟩ := issue_legal hi
  cases i with
  | colr | diagr | dround | block | xform => cases primitive
  | valid => simp only [exec, execValid] at h; split at h <;> cases h
  | ovfchk => simp only [exec, execOvfchk] at h; split at h <;> cases h
  | ldkn => simp only [exec, execLdkn, loadKeyNonce] at h; split at h <;> cases h
  | qr a b c d => simp only [exec, execQr, wf, if_true, reduceCtorEq] at h
  | xorb m => simp only [exec, execXorb, wf, if_true] at h; exact overlay_refused h
  | init | ffadd | ser | wipe | ctrinc | ret => cases h

/-- The refusal of illegal ranges is not the one of a missing word. -/
theorem rangeRefusal_ne_noWord : rangeRefusal s ≠ some .noWordToIssue := by
  unfold rangeRefusal
  simp only
  repeat' split
  all_goals nofun

theorem engineStep_ne_noWord (inv : EngineInv s) : engineStep s ≠ .refused .noWordToIssue := by
  intro h
  by_cases busy : s.ph = .idle
  · cases (engineStep_idle busy).symm.trans h
  · obtain ⟨i, hi⟩ := issue_of_busy inv busy
    rw [engineStep_of_issue busy (inv.ranges busy) hi] at h
    obtain hr | ⟨u, -, hu⟩ := andThen_eq_refused.1 h
    · cases exec_issued_refused hi hr
    · cases hu

theorem startMove_ne_noWord : startMove s ≠ .refused .noWordToIssue := by
  unfold startMove
  split
  · nofun
  · split
    · rename_i hr
      exact fun h => rangeRefusal_ne_noWord (hr.trans (congrArg some (Host.Outcome.refused.inj h)))
    · nofun

theorem hostWrite_ne_noWord {r : HostReg} {v : Nat} : hostWrite r v s ≠ .refused .noWordToIssue := by
  cases r with
  | desc d => unfold hostWrite; simp only; split <;> nofun
  | ctrl =>
    unfold hostWrite
    simp only
    split
    · nofun
    · split
      · exact startMove_ne_noWord
      · nofun
  | status | ctrOut => nofun

theorem hostRead_ne_noWord {r : HostReg} : hostRead r s ≠ .refused .noWordToIssue := by
  unfold hostRead
  repeat' split
  all_goals nofun

theorem hostAccess_ne_noWord {kind : Access} {a : Nat} {next : State} :
    hostAccess kind a s next ≠ .refused .noWordToIssue := by
  unfold hostAccess
  repeat' split
  all_goals nofun

theorem resetMove_ne_noWord {k : Nat} : resetMove k s ≠ .refused .noWordToIssue := by
  unfold resetMove
  split
  · simp only
    split
    · nofun
    · intro h
      obtain hr | ⟨u, -, hu⟩ := andThen_eq_refused.1 h
      · cases overlay_refused hr
      · cases hu
  all_goals nofun

theorem finishCall_ne_noWord {onOk : Word → CallReturn} {rest : List HostMove} (inv : EngineInv s) :
    finishCall onOk rest s ≠ .refused .noWordToIssue := by
  unfold finishCall
  split
  · exact engineStep_ne_noWord inv
  · split <;> nofun

/-- No move of the host lacks a word: those that give the engine the turn find it with one. -/
theorem hostStep_ne_noWord {move : HostMove} {rest : List HostMove} (inv : EngineInv s) :
    hostStep move rest s ≠ .refused .noWordToIssue := by
  have inv' : EngineInv { s with host := rest } := engineInv_of_engine_eq inv inv.memWf rfl
  cases move with
  | write r v => exact hostWrite_ne_noWord
  | read r => exact hostRead_ne_noWord
  | memWrite a v => exact hostAccess_ne_noWord
  | memRead a => exact hostAccess_ne_noWord
  | reset k => exact resetMove_ne_noWord
  | wait => exact engineStep_ne_noWord inv'
  | await =>
    unfold hostStep
    simp only
    split
    · exact engineStep_ne_noWord inv
    · nofun
  | returnCounter => exact finishCall_ne_noWord inv
  | returnVoid => exact finishCall_ne_noWord inv
  | fail e => nofun

/-- Settles O47: a busy engine issues a word, which goes on where memory accepts it; and no turn, the engine's or the host's,
ends for want of a word. -/
theorem busyEngineAlwaysSteps : Obligations.BusyEngineAlwaysSteps := by
  refine ⟨fun s inv host ranges acc => ?_, fun s inv => ?_⟩
  · rw [step_alone ⟨inv.noListing, host⟩]
    by_cases busy : s.ph = .idle
    · exact ⟨s, engineStep_idle busy⟩
    · obtain ⟨i, hi⟩ := issue_of_busy inv busy
      obtain ⟨u, hu⟩ := exec_issued inv acc hi
      exact ⟨advance u, by rw [engineStep_of_issue busy ranges hi, hu, andThen_next]⟩
  · cases hh : s.host with
    | nil =>
      rw [step_alone ⟨inv.noListing, hh⟩]
      exact engineStep_ne_noWord inv
    | cons move rest =>
      rw [step_host inv.noListing hh]
      exact hostStep_ne_noWord inv

end Sys2Proof.Machine
end

/-! ### XFORM's loop over the blocks: when it runs and what it leaves (R116) -/
section
namespace Sys2Proof.Machine

open Sys2Proof.Safety

variable {s t : State}

/-! One block. -/

/-- The state after one block that memory accepts: the keystream of the counter, the overlay of the block, the counts. -/
def afterBlock (s : State) : State :=
  let u := transformBlock (initialise s)
  advanceBlock (advanceCounter { u with mem := overlayMem u (blockBytes s) })

@[simp] theorem afterBlock_k (s : State) : (afterBlock s).k = s.k := by simp [afterBlock]
@[simp] theorem afterBlock_n (s : State) : (afterBlock s).n = s.n := by simp [afterBlock]
@[simp] theorem afterBlock_ctr (s : State) : (afterBlock s).ctr = s.ctr + 1 := by simp [afterBlock]
@[simp] theorem afterBlock_blk (s : State) : (afterBlock s).blk = s.blk + 1 := by simp [afterBlock]
@[simp] theorem afterBlock_desc (s : State) : (afterBlock s).desc = s.desc := by simp [afterBlock]
@[simp] theorem afterBlock_params (s : State) : (afterBlock s).params = s.params := by simp [afterBlock]
@[simp] theorem afterBlock_rejects (s : State) : (afterBlock s).rejects = s.rejects := by simp [afterBlock]
@[simp] theorem afterBlock_mem (s : State) :
    (afterBlock s).mem = overlayMem (transformBlock (initialise s)) (blockBytes s) := by simp [afterBlock]

/-- Which accesses can be made is a matter of the platform alone (R40, R48). -/
theorem accessFault_congr (params : t.params = s.params) (rejects : t.rejects = s.rejects) :
    accessFault t = accessFault s := by
  funext kind a
  rw [accessFault, accessFault, params, rejects]

/-- The keystream's words leave the byte count and the addresses of the block. -/
theorem blockBytes_transformBlock (s : State) : blockBytes (transformBlock (initialise s)) = blockBytes s := by
  simp [blockBytes]

theorem inByteAddr_transformBlock (s : State) : inByteAddr (transformBlock (initialise s)) = inByteAddr s := by
  funext j
  simp [inByteAddr]

theorem outByteAddr_transformBlock (s : State) : outByteAddr (transformBlock (initialise s)) = outByteAddr s := by
  funext j
  simp [outByteAddr]

/-- The memory accepts the accesses to the bytes from the current block on (R48). -/
def AcceptsRest (s : State) : Prop := ∀ j, 64 * s.blk.toNat ≤ j → j < s.desc.inLen →
  accessFault s .read (s.desc.inAddr + j) = none ∧ accessFault s .write (s.desc.outAddr + j) = none

/-- One block of XFORM runs exactly when memory accepts it (R116). -/
theorem commandBlock_eq_next {r : Nat} (inv : LoopInv s (r + 1)) :
    commandBlock s = .next t ↔ AcceptsBlock s ∧ t = afterBlock s := by
  have faults : accessFault (transformBlock (initialise s)) = accessFault s := accessFault_congr (by simp) (by simp)
  have apart := inv.keystream.overlayRefusal_eq_none
  have accepted : firstFault (transformBlock (initialise s))
      (overlayAccesses (transformBlock (initialise s)) (blockBytes s)) = none ↔ AcceptsBlock s := by
    rw [overlayAccesses_accepted, faults, inByteAddr_transformBlock, outByteAddr_transformBlock]
    rfl
  rw [blockBytes_transformBlock] at apart
  simp only [commandBlock, blockBytes_transformBlock, andThen_eq_next, overlay_eq_next, apart, accepted, true_and]
  constructor
  · rintro ⟨u, ⟨acc, rfl⟩, ht⟩
    exact ⟨acc, (Host.Outcome.next.inj ht).symm⟩
  · rintro ⟨acc, rfl⟩
    exact ⟨_, ⟨acc, rfl⟩, rfl⟩

/-- The rest of the buffers is the current block and the rest after it. -/
theorem acceptsRest_iff {r : Nat} (inv : LoopInv s (r + 1)) :
    AcceptsRest s ↔ AcceptsBlock s ∧ AcceptsRest (afterBlock s) := by
  obtain ⟨last, bytes⟩ := inv.blockBytes_end
  have left := inv.left
  have next : (s.blk + 1).toNat = s.blk.toNat + 1 := by bv_omega
  have faults : accessFault (afterBlock s) = accessFault s := accessFault_congr (by simp) (by simp)
  simp only [AcceptsRest, AcceptsBlock, faults, afterBlock_blk, afterBlock_desc, next, inByteAddr, outByteAddr,
    Config.blockSize, Nat.add_assoc]
  constructor
  · exact fun acc => ⟨fun i hi => acc _ (by omega) (by omega), fun j lo hi => acc j (by omega) hi⟩
  · rintro ⟨block, rest⟩ j lo hi
    by_cases inside : j < 64 * (s.blk.toNat + 1)
    · obtain ⟨i, rfl⟩ := Nat.exists_eq_add_of_le lo
      exact block i (by omega)
    · exact rest j (by omega) hi

/-- The bytes of the current block are input XOR keystream (R116, R140). -/
theorem afterBlock_byte {r : Nat} (inv : LoopInv s (r + 1)) (wf : Memory.wf s.mem) {i : Nat} (hi : i < blockBytes s) :
    memByte (afterBlock s).mem (s.desc.outAddr + (64 * s.blk.toNat + i)) =
      memByte s.mem (s.desc.inAddr + (64 * s.blk.toNat + i)) ^^^ (keystreamBlock s.k s.n s.ctr s.desc.rounds).getD i 0 := by
  have byte := overlayMem_byte (s := transformBlock (initialise s)) (by simpa using wf) hi
    (by rw [inByteAddr_transformBlock, outByteAddr_transformBlock, inv.block_apart])
  rw [transformBlock_initialise_ks, inByteAddr_transformBlock, outByteAddr_transformBlock] at byte
  simpa [inByteAddr, outByteAddr, Config.blockSize, Nat.add_assoc] using byte

/-- A block writes its own bytes of the output and no other (R140). -/
theorem afterBlock_other {a : Nat}
    (outside : a < s.desc.outAddr + 64 * s.blk.toNat ∨ s.desc.outAddr + 64 * s.blk.toNat + blockBytes s ≤ a) :
    memByte (afterBlock s).mem a = memByte s.mem a := by
  rw [afterBlock_mem, overlayMem_other, transformBlock_mem, initialise_mem]
  intro i hi
  rw [outByteAddr_transformBlock, outByteAddr, Config.blockSize]
  omega

/-! The blocks that are left. -/

/-- The loop runs when memory accepts what is left of the buffers. -/
theorem commandBlocks_total {r : Nat} (inv : LoopInv s r) (acc : AcceptsRest s) : ∃ t, commandBlocks r s = .next t := by
  induction r generalizing s with
  | zero => exact ⟨s, rfl⟩
  | succ r ih =>
    obtain ⟨block, rest⟩ := (acceptsRest_iff inv).1 acc
    have run := (commandBlock_eq_next inv).2 ⟨block, rfl⟩
    obtain ⟨t, ht⟩ := ih (inv.afterBlock run) rest
    exact ⟨t, by rw [commandBlocks, run, andThen_next, ht]⟩

/-- The step of an induction on the loop. -/
theorem commandBlocks_succ {r : Nat} (inv : LoopInv s (r + 1)) (h : commandBlocks (r + 1) s = .next t) :
    AcceptsBlock s ∧ LoopInv (afterBlock s) r ∧ commandBlocks r (afterBlock s) = .next t := by
  obtain ⟨u, hu, ht⟩ := andThen_eq_next.1 h
  obtain ⟨acc, rfl⟩ := (commandBlock_eq_next inv).1 hu
  exact ⟨acc, inv.afterBlock hu, ht⟩

/-- With no block left no byte is left (R112). -/
theorem LoopInv.bytes_done (inv : LoopInv s 0) : s.desc.inLen ≤ 64 * s.blk.toNat := by
  have blocks := inv.blocks
  have left := inv.left
  unfold blockCount Config.blockSize at blocks
  omega

/-- A loop that has run was accepted by memory. -/
theorem commandBlocks_accepted {r : Nat} (inv : LoopInv s r) (h : commandBlocks r s = .next t) : AcceptsRest s := by
  induction r generalizing s with
  | zero =>
    have done := inv.bytes_done
    intro j lo hi
    omega
  | succ r ih =>
    obtain ⟨block, inv', h⟩ := commandBlocks_succ inv h
    exact (acceptsRest_iff inv).2 ⟨block, ih inv' h⟩

/-- The counter advances once per block (R119). -/
theorem commandBlocks_ctr {r : Nat} (inv : LoopInv s r) (h : commandBlocks r s = .next t) :
    t.ctr = s.ctr + BitVec.ofNat 32 r := by
  induction r generalizing s with
  | zero =>
    obtain rfl := Host.Outcome.next.inj h
    exact (BitVec.add_zero _).symm
  | succ r ih =>
    obtain ⟨-, inv', h⟩ := commandBlocks_succ inv h
    rw [ih inv' h, afterBlock_ctr, BitVec.add_assoc, BitVec.add_comm 1, BitVec.ofNat_add]
    rfl

/-- The loop writes the bytes that are left of the output and no other. -/
theorem commandBlocks_other {r : Nat} (inv : LoopInv s r) (h : commandBlocks r s = .next t) {a : Nat}
    (outside : a < s.desc.outAddr + 64 * s.blk.toNat ∨ s.desc.outAddr + s.desc.inLen ≤ a) :
    memByte t.mem a = memByte s.mem a := by
  induction r generalizing s with
  | zero => exact Host.Outcome.next.inj h ▸ rfl
  | succ r ih =>
    obtain ⟨-, inv', h⟩ := commandBlocks_succ inv h
    obtain ⟨last, bytes⟩ := inv.blockBytes_end
    have left := inv.left
    have next : (s.blk + 1).toNat = s.blk.toNat + 1 := by bv_omega
    rw [ih inv' h (by rw [afterBlock_desc, afterBlock_blk, next]; omega), afterBlock_other (by omega)]

/-- Byte `j` of the keystream of a key, a nonce and a descriptor (R116). -/
def streamByte (k : Vector Word 8) (n : Vector Word 3) (d : Descriptor) (j : Nat) : Byte :=
  (keystreamBlock k n (d.counter + BitVec.ofNat 32 (j / 64)) d.rounds).getD (j % 64) 0

/-- Where CTR is the counter of the current block, each byte the loop writes is input XOR keystream (R14, R116): a byte of the
current block is written now and kept by the blocks after it, and this block leaves the input of a later one. -/
theorem commandBlocks_byte {r : Nat} (inv : LoopInv s r) (wf : Memory.wf s.mem) (ctr : s.ctr = s.desc.counter + s.blk)
    (h : commandBlocks r s = .next t) {j : Nat} (lo : 64 * s.blk.toNat ≤ j) (hi : j < s.desc.inLen) :
    memByte t.mem (s.desc.outAddr + j) = memByte s.mem (s.desc.inAddr + j) ^^^ streamByte s.k s.n s.desc j := by
  induction r generalizing s with
  | zero =>
    have done := inv.bytes_done
    omega
  | succ r ih =>
    obtain ⟨-, inv', h⟩ := commandBlocks_succ inv h
    obtain ⟨last, bytes⟩ := inv.blockBytes_end
    have left := inv.left
    have next : (afterBlock s).blk.toNat = s.blk.toNat + 1 := by rw [afterBlock_blk]; bv_omega
    by_cases inside : j < 64 * (s.blk.toNat + 1)
    · obtain ⟨i, rfl⟩ := Nat.exists_eq_add_of_le lo
      have block : BitVec.ofNat 32 ((64 * s.blk.toNat + i) / 64) = s.blk := by
        rw [show (64 * s.blk.toNat + i) / 64 = s.blk.toNat by omega, BitVec.ofNat_toNat, BitVec.setWidth_eq]
      have byte : (64 * s.blk.toNat + i) % 64 = i := by omega
      rw [commandBlocks_other inv' h (by rw [afterBlock_desc, next]; omega), afterBlock_byte inv wf (by omega), streamByte,
        block, byte, ctr]
    · have input : memByte (afterBlock s).mem (s.desc.inAddr + j) = memByte s.mem (s.desc.inAddr + j) := by
        obtain ⟨-, -, -, -, inOut, -, -⟩ := inv.ranges
        exact afterBlock_other (by omega)
      have later := ih inv' (afterBlock_mem s ▸ overlayMem_wf (by simpa using wf) _)
        (by rw [afterBlock_ctr, afterBlock_desc, afterBlock_blk, ctr, BitVec.add_assoc]) h (by omega)
        (by rwa [afterBlock_desc])
      rwa [afterBlock_desc, afterBlock_k, afterBlock_n, input] at later

end Sys2Proof.Machine
end

/-! ### What XFORM answers and what it leaves (R116, R118, R119) -/
section
namespace Sys2Proof.Machine

open Sys2Proof.Safety

variable {s t : State} {d : Descriptor} {c : Word}

/-! The traps of XFORM (R156). -/

/-- The exception a command takes: the first check of VALID, then OVFCHK's, that fails (R156). -/
def commandError (d : Descriptor) : Option Exc :=
  match entryError d with
  | some e => some e
  | none => if counterOverflows d then some .counterOverflow else none

/-- A command takes no exception exactly when it is accepted (R182). -/
theorem commandError_eq_none : commandError d = none ↔ Accepted d := by
  rw [accepted_iff, commandError]
  cases entryError d with
  | some e => simp
  | none => cases counterOverflows d <;> simp

/-- A command that is not accepted answers its exception and does nothing else (R116, R157). -/
theorem xform_trap {e : Exc} (ranges : LegalRanges s.params s.desc) (failed : commandError s.desc = some e) :
    exec .xform s = .next (takeTrap e (beginCommand s)) := by
  refine (execXform_legal ranges).trans ?_
  simp only [commandError] at failed
  simp only [runCommand, beginCommand_desc]
  cases checked : entryError s.desc with
  | some e' =>
    simp only [checked, Option.some.injEq] at failed
    simp only [failed]
  | none =>
    simp only [checked] at failed
    split at failed
    · rename_i overflows
      simp only [overflows, if_true, ← Option.some.inj failed]
    · cases failed

/-- An accepted command runs its body on the block count (R116). -/
theorem xform_accepted (ranges : LegalRanges s.params s.desc) (acc : Accepted s.desc) :
    exec .xform s = commandBody (setBlockCount (beginCommand s)) := by
  obtain ⟨checked, fits⟩ := accepted_iff.1 acc
  refine (execXform_legal ranges).trans ?_
  simp only [runCommand, beginCommand_desc, checked, fits, Bool.false_eq_true, if_false]

/-- XFORM that goes on has legal ranges (R191). -/
theorem xform_ranges (h : exec .xform s = .next t) : LegalRanges s.params s.desc := by
  by_contra illegal
  obtain ⟨r, hr⟩ := execXform_illegal illegal
  cases hr.symm.trans h

/-- XFORM that answers `Ok` was accepted (R116). -/
theorem xform_ok_accepted (h : exec .xform s = .next t) (ok : t.result = .ok c) : Accepted s.desc := by
  cases failed : commandError s.desc with
  | none => exact commandError_eq_none.1 failed
  | some e =>
    rw [xform_trap (xform_ranges h) failed] at h
    obtain rfl := Host.Outcome.next.inj h
    cases ok

/-! An accepted command (R116). -/

/-- XFORM's state after LDKN, before the loop (R116 line 8). -/
def loaded (s : State) : State := latchWords (setBlockCount (beginCommand s))

/-- A command without blocks wipes and returns COUNTER at once (R118). -/
theorem xform_empty (ranges : LegalRanges s.params s.desc) (acc : Accepted s.desc) (empty : s.desc.inLen = 0) :
    exec .xform s = .next (endCommand (wipeRegisters (setBlockCount (beginCommand s)))) := by
  have noBlock : blockCount (setBlockCount (beginCommand s)).desc.inLen = 0 := blockCount_eq_zero.2 empty
  rw [xform_accepted ranges acc, commandBody, if_pos noBlock, andThen_next]

/-- A command with blocks reads key and nonce, runs the loop, wipes and returns CTR (R116). -/
theorem xform_blocks (ranges : LegalRanges s.params s.desc) (acc : Accepted s.desc) (bytes : s.desc.inLen ≠ 0) :
    exec .xform s = .next t ↔ ((∀ j < 32, accessFault s .read (s.desc.keyAddr + j) = none) ∧
      (∀ j < 12, accessFault s .read (s.desc.nonceAddr + j) = none)) ∧
      ∃ u, commandBlocks (blockCount s.desc.inLen) (loaded s) = .next u ∧ t = endCommand (wipeRegisters u) := by
  have blocks : blockCount (setBlockCount (beginCommand s)).desc.inLen ≠ 0 := mt blockCount_eq_zero.1 bytes
  have reads := loadAccesses_accepted (s := setBlockCount (beginCommand s))
  have faults : accessFault (setBlockCount (beginCommand s)) = accessFault s := accessFault_congr rfl rfl
  rw [faults] at reads
  rw [xform_accepted ranges acc, commandBody, if_neg blocks]
  simp only [andThen_eq_next, loadKeyNonce_eq_next, reads]
  constructor
  · rintro ⟨u, ⟨v, ⟨hr, rfl⟩, hu⟩, ht⟩
    exact ⟨hr, u, hu, (Host.Outcome.next.inj ht).symm⟩
  · rintro ⟨hr, u, hu, rfl⟩
    exact ⟨u, ⟨_, ⟨hr, rfl⟩, hu⟩, rfl⟩

/-- An accepted command enters the loop at its first block. -/
theorem loopInv_loaded (ranges : LegalRanges s.params s.desc) (acc : Accepted s.desc) :
    LoopInv (loaded s) (blockCount s.desc.inLen) := by
  obtain ⟨-, fits⟩ := accepted_iff.1 acc
  have count : (loaded s).nblk.toNat = blockCount s.desc.inLen := setBlockCount_toNat (s := beginCommand s) fits
  exact ⟨ranges, acc.rounds, count, (Nat.zero_add _).trans count.symm⟩

/-- From the first block on, what is left of the buffers is the whole of them. -/
theorem acceptsRest_loaded : AcceptsRest (loaded s) ↔ ∀ j < s.desc.inLen,
    accessFault s .read (s.desc.inAddr + j) = none ∧ accessFault s .write (s.desc.outAddr + j) = none := by
  have faults : accessFault (loaded s) = accessFault s := accessFault_congr rfl rfl
  rw [AcceptsRest, faults]
  exact ⟨fun h j hj => h j (Nat.zero_le j) hj, fun h j _ hj => h j hj⟩

/-- An accepted command with legal ranges runs when it has no bytes, or memory accepts its accesses (R48, R118). -/
theorem xform_runs (ranges : LegalRanges s.params s.desc) (acc : Accepted s.desc)
    (mem : s.desc.inLen = 0 ∨ MemoryAccepts s) : ∃ t, exec .xform s = .next t := by
  by_cases empty : s.desc.inLen = 0
  · exact ⟨_, xform_empty ranges acc empty⟩
  · have mem := mem.resolve_left empty
    obtain ⟨u, hu⟩ := commandBlocks_total (loopInv_loaded ranges acc)
      (acceptsRest_loaded.2 fun j hj => ⟨mem.input j hj, mem.output j hj⟩)
    exact ⟨_, (xform_blocks ranges acc empty).2 ⟨⟨mem.key, mem.nonce⟩, u, hu, rfl⟩⟩

/-- A command with bytes that has run was accepted by memory (R48). -/
theorem xform_memoryAccepts (h : exec .xform s = .next t) (acc : Accepted s.desc) (bytes : s.desc.inLen ≠ 0) :
    MemoryAccepts s := by
  have ranges := xform_ranges h
  obtain ⟨⟨key, nonce⟩, u, hu, -⟩ := (xform_blocks ranges acc bytes).1 h
  have rest := acceptsRest_loaded.1 (commandBlocks_accepted (loopInv_loaded ranges acc) hu)
  exact ⟨fun j hj => (rest j hj).1, fun j hj => (rest j hj).2, key, nonce⟩

/-- What a command that has run leaves (R116, R119): the counter after its blocks, an idle engine with a zero datapath, input XOR
keystream in the output range, and everything else as it was. -/
structure CommandDone (s t : State) : Prop where
  result : t.result = .ok (s.desc.counter + BitVec.ofNat 32 (blockCount s.desc.inLen))
  idle : t.ph = .idle
  zero : DatapathZero t
  outside : surroundings t = surroundings s
  output : Memory.wf s.mem → ∀ j < s.desc.inLen,
    memByte t.mem (s.desc.outAddr + j) = memByte s.mem (s.desc.inAddr + j) ^^^ keystreamByte s j
  kept : ∀ a, a < s.desc.outAddr ∨ s.desc.outAddr + s.desc.inLen ≤ a → memByte t.mem a = memByte s.mem a

/-- An accepted command that has run is done (R116). -/
theorem commandDone (h : exec .xform s = .next t) (acc : Accepted s.desc) : CommandDone s t := by
  have ranges := xform_ranges h
  have outside := runCommand_surroundings ((execXform_legal ranges).symm.trans h)
  by_cases empty : s.desc.inLen = 0
  · obtain rfl := Host.Outcome.next.inj ((xform_empty ranges acc empty).symm.trans h)
    refine ⟨?_, rfl, ⟨rfl, rfl, rfl, rfl, rfl⟩, outside, fun _ j hj => by omega, fun _ _ => rfl⟩
    rw [blockCount_eq_zero.2 empty, BitVec.add_zero]
    rfl
  · obtain ⟨-, u, hu, rfl⟩ := (xform_blocks ranges acc empty).1 h
    have inv := loopInv_loaded ranges acc
    have ctr := commandBlocks_ctr inv hu
    have start : (loaded s).ctr = (loaded s).desc.counter + (loaded s).blk := (BitVec.add_zero _).symm
    exact ⟨congrArg Result.ok ctr, rfl, ⟨rfl, rfl, rfl, rfl, rfl⟩, outside,
      fun wf j hj => commandBlocks_byte inv wf start hu (Nat.zero_le j) hj, fun a ha => commandBlocks_other inv hu ha⟩

/-- The counter a command returns does not wrap (R112, R119). -/
theorem returnedCounter_toNat (acc : Accepted d) :
    (d.counter + BitVec.ofNat 32 (blockCount d.inLen)).toNat = d.counter.toNat + (d.inLen + 63) / 64 := by
  have bound := acc.counter
  rw [blockCount, Config.blockSize, BitVec.toNat_add, BitVec.toNat_ofNat]
  omega

/-- XFORM writes the registers of the datapath and the sequencer, RESULT and memory alone (R116). -/
theorem eq_of_surroundings (h : surroundings t = surroundings s) :
    t = { s with x := t.x, saved := t.saved, ks := t.ks, k := t.k, n := t.n, ctr := t.ctr, ph := t.ph, blk := t.blk,
                 dr := t.dr, qi := t.qi, nblk := t.nblk, result := t.result, mem := t.mem } := by
  simp only [surroundings, Prod.mk.injEq] at h
  obtain ⟨desc, written, params, rejects, host, listing, readData, returned, fresh⟩ := h
  rw [← desc, ← written, ← params, ← rejects, ← host, ← listing, ← readData, ← returned, ← fresh]

/-- Settles O35: the command runs and is done. -/
theorem xformWritesInputXorKeystream : Obligations.XformWritesInputXorKeystream := by
  intro s wf acc ranges mem
  obtain ⟨t, h⟩ := xform_runs ranges acc (.inr mem)
  have done := commandDone h acc
  exact ⟨t, _, h, done.result, returnedCounter_toNat acc, done.idle, done.zero, done.output wf, done.kept,
    eq_of_surroundings done.outside⟩

/-- Settles O36: without blocks the command ends at once; a block loop would need a block left; a trap leaves memory. -/
theorem zeroLengthCommandTouchesNoMemory : Obligations.ZeroLengthCommandTouchesNoMemory := by
  refine ⟨fun s ranges acc empty => ?_, fun s inv empty => ?_, fun s ranges rejected _ => ?_,
    fun s ranges inLen outLen nonce key => ?_⟩
  · have noBlock : BitVec.ofNat 32 (blockCount s.desc.inLen) = 0 := congrArg _ (blockCount_eq_zero.2 empty)
    exact ⟨_, xform_empty ranges acc empty, rfl, rfl, noBlock, rfl⟩
  · by_contra inLoop
    have run := inv.inBlock (Bool.not_eq_false _ ▸ inLoop)
    have left := run.left
    rw [run.blocks, empty] at left
    exact Nat.not_lt_zero _ left
  · obtain ⟨e, failed⟩ := Option.ne_none_iff_exists'.1 (mt commandError_eq_none.1 rejected)
    exact ⟨_, e, xform_trap ranges failed, rfl, rfl⟩
  · have failed : commandError s.desc = some .invalidKeyLength := by
      simp [commandError, entryError, inLen, outLen, nonce, key, Config.nonceSize, Config.keySize]
    exact ⟨_, xform_trap ranges failed, rfl, rfl⟩

/-- Settles O37: the result of a command that is done, on naturals. -/
theorem counterAdvancesOncePerBlock : Obligations.CounterAdvancesOncePerBlock := by
  intro s t c h ok
  have acc := xform_ok_accepted h ok
  have total : c.toNat = s.desc.counter.toNat + (s.desc.inLen + 63) / 64 := by
    rw [← returnedCounter_toNat acc, Result.ok.inj (ok.symm.trans (commandDone h acc).result)]
  exact ⟨total, fun partialBlock => by omega, fun whole => by omega⟩

end Sys2Proof.Machine
end

/-! ### Two commands: cut and resumed, run back on the output, run from other registers (R120 to R122) -/
section
namespace Sys2Proof.Machine

open Sys2Proof.Safety

variable {s s' t u : State}

/-! What a keystream byte depends on (R116). -/

/-- Words of memories with the same bytes are the same (R42). -/
theorem memWord_congr {m m' : Memory} {a : Nat} (h : ∀ i < 4, memByte m (a + i) = memByte m' (a + i)) :
    memWord m a = memWord m' a := by
  have first := h 0 (by omega)
  rw [Nat.add_zero] at first
  rw [memWord, memWord, first, h 1 (by omega), h 2 (by omega), h 3 (by omega)]

/-- The two memories hold the same key and nonce bytes for the descriptor. -/
structure SameKey (d : Descriptor) (m m' : Memory) : Prop where
  key : ∀ j < 32, memByte m (d.keyAddr + j) = memByte m' (d.keyAddr + j)
  nonce : ∀ j < 12, memByte m (d.nonceAddr + j) = memByte m' (d.nonceAddr + j)

theorem SameKey.keyWords_eq (same : SameKey s.desc s.mem s'.mem) (addr : s'.desc.keyAddr = s.desc.keyAddr) :
    keyWords s' = keyWords s := by
  rw [keyWords, keyWords, addr]
  congr 1
  funext w
  refine (memWord_congr fun i hi => ?_).symm
  rw [Nat.add_assoc]
  exact same.key _ (by omega)

theorem SameKey.nonceWords_eq (same : SameKey s.desc s.mem s'.mem) (addr : s'.desc.nonceAddr = s.desc.nonceAddr) :
    nonceWords s' = nonceWords s := by
  rw [nonceWords, nonceWords, addr]
  congr 1
  funext w
  refine (memWord_congr fun i hi => ?_).symm
  rw [Nat.add_assoc]
  exact same.nonce _ (by omega)

/-- With the same key and nonce bytes a keystream byte is fixed by its place in the block, the counter of the block and the
round count (R97, R116). -/
theorem keystreamByte_congr {j j' : Nat} (same : SameKey s.desc s.mem s'.mem) (keyAddr : s'.desc.keyAddr = s.desc.keyAddr)
    (nonceAddr : s'.desc.nonceAddr = s.desc.nonceAddr) (rounds : s'.desc.rounds = s.desc.rounds)
    (counter : s'.desc.counter + BitVec.ofNat 32 (j' / 64) = s.desc.counter + BitVec.ofNat 32 (j / 64))
    (byte : j' % 64 = j % 64) : keystreamByte s' j' = keystreamByte s j := by
  rw [keystreamByte, keystreamByte, same.keyWords_eq keyAddr, same.nonceWords_eq nonceAddr, rounds, counter, byte]

/-- A command leaves its key and its nonce, because its output range is apart from both (R46). -/
theorem CommandDone.sameKey (done : CommandDone s t) (ranges : LegalRanges s.params s.desc) : SameKey s.desc s.mem t.mem := by
  obtain ⟨-, -, -, -, -, outKey, outNonce⟩ := ranges
  exact ⟨fun j hj => (done.kept _ (by omega)).symm, fun j hj => (done.kept _ (by omega)).symm⟩

/-- A command leaves which accesses can be made. -/
theorem accessFault_of_surroundings (h : surroundings t = surroundings s) : accessFault t = accessFault s := by
  simp only [surroundings, Prod.mk.injEq] at h
  obtain ⟨-, -, params, rejects, -⟩ := h
  exact accessFault_congr params rejects

theorem params_of_surroundings (h : surroundings t = surroundings s) : t.params = s.params := by
  simp only [surroundings, Prod.mk.injEq] at h
  obtain ⟨-, -, params, -⟩ := h
  exact params

/-! A command in two parts (R120). -/

/-- The command on the first `cut` bytes. -/
def firstPart (s : State) (cut : Nat) : State := { s with desc := { s.desc with inLen := cut, outLen := cut } }

/-- The command on the rest, from the counter `c`, on the state the first part left. -/
def restPart (s first : State) (cut : Nat) (c : Word) : State :=
  { first with desc := { s.desc with
      inAddr := s.desc.inAddr + cut, outAddr := s.desc.outAddr + cut,
      inLen := s.desc.inLen - cut, outLen := s.desc.inLen - cut, counter := c } }

section
variable {cut : Nat} {first : State} {c : Word}

theorem firstPart_accepted (acc : Accepted s.desc) (le : cut ≤ s.desc.inLen) : Accepted (firstPart s cut).desc := by
  obtain ⟨-, nonce, key, rounds, counter⟩ := acc
  refine ⟨rfl, nonce, key, rounds, ?_⟩
  show s.desc.counter.toNat + (cut + 63) / 64 ≤ 2 ^ 32 - 1
  omega

theorem firstPart_ranges (ranges : LegalRanges s.params s.desc) (len : s.desc.outLen = s.desc.inLen)
    (le : cut ≤ s.desc.inLen) : LegalRanges (firstPart s cut).params (firstPart s cut).desc := by
  obtain ⟨outFits, inFits, nonceFits, keyFits, inOut, outKey, outNonce⟩ := ranges
  refine ⟨?_, ?_, nonceFits, keyFits, ?_, ?_, ?_⟩ <;> simp only [firstPart] <;> omega

theorem firstPart_memory (mem : MemoryAccepts s) (le : cut ≤ s.desc.inLen) : MemoryAccepts (firstPart s cut) :=
  ⟨fun j hj => mem.input j (hj.trans_le le), fun j hj => mem.output j (hj.trans_le le), mem.key, mem.nonce⟩

theorem restPart_accepted (acc : Accepted s.desc) (le : cut ≤ s.desc.inLen) (whole : cut % 64 = 0)
    (hc : c.toNat = s.desc.counter.toNat + (cut + 63) / 64) : Accepted (restPart s first cut c).desc := by
  obtain ⟨-, nonce, key, rounds, counter⟩ := acc
  refine ⟨rfl, nonce, key, rounds, ?_⟩
  show c.toNat + (s.desc.inLen - cut + 63) / 64 ≤ 2 ^ 32 - 1
  omega

theorem restPart_ranges (ranges : LegalRanges s.params s.desc) (len : s.desc.outLen = s.desc.inLen) (le : cut ≤ s.desc.inLen)
    (params : first.params = s.params) : LegalRanges (restPart s first cut c).params (restPart s first cut c).desc := by
  obtain ⟨outFits, inFits, nonceFits, keyFits, inOut, outKey, outNonce⟩ := ranges
  refine ⟨?_, ?_, ?_, ?_, ?_, ?_, ?_⟩ <;> simp only [restPart, params] <;> omega

theorem restPart_memory (mem : MemoryAccepts s) (faults : accessFault first = accessFault s) :
    MemoryAccepts (restPart s first cut c) := by
  have here : accessFault (restPart s first cut c) = accessFault s := faults
  refine ⟨fun j (hj : j < s.desc.inLen - cut) => ?_, fun j (hj : j < s.desc.inLen - cut) => ?_, here ▸ mem.key,
    here ▸ mem.nonce⟩
  · rw [here, restPart, Nat.add_assoc]
    exact mem.input _ (by omega)
  · rw [here, restPart, Nat.add_assoc]
    exact mem.output _ (by omega)

/-- The blocks of the two parts are the blocks of the whole (R119, R120). -/
theorem blockCount_parts {len : Nat} (le : cut ≤ len) (whole : cut % 64 = 0) :
    blockCount cut + blockCount (len - cut) = blockCount len := by
  simp only [blockCount, Config.blockSize]
  omega

/-- The keystream of the rest is the keystream of the whole from byte `cut` on: the key is still there, and the counter of the
rest starts where the blocks of the first part end. -/
theorem keystreamByte_restPart (same : SameKey s.desc s.mem first.mem) (whole : cut % 64 = 0) (i : Nat) :
    keystreamByte (restPart s first cut (s.desc.counter + BitVec.ofNat 32 (blockCount cut))) i = keystreamByte s (cut + i) := by
  have block : blockCount cut + i / 64 = (cut + i) / 64 := by
    simp only [blockCount, Config.blockSize]
    omega
  refine keystreamByte_congr (s' := restPart s first cut _) same rfl rfl rfl ?_ (by omega)
  rw [← block, BitVec.ofNat_add, ← BitVec.add_assoc]
  rfl

/-- The two parts leave the memory the whole command leaves: byte by byte, in the first part of the output, in the rest of it,
and outside. -/
theorem parts_mem (wf : Memory.wf s.mem) (ranges : LegalRanges s.params s.desc) (le : cut ≤ s.desc.inLen)
    (whole : cut % 64 = 0) {second : State} (done : CommandDone s t) (hfirst : CommandDone (firstPart s cut) first)
    (wfFirst : Memory.wf first.mem) (same : SameKey s.desc s.mem first.mem)
    (hsecond : CommandDone (restPart s first cut (s.desc.counter + BitVec.ofNat 32 (blockCount cut))) second) (a : Nat) :
    memByte second.mem a = memByte t.mem a := by
  obtain ⟨-, -, -, -, inOut, -, -⟩ := ranges
  have firstKept : ∀ a, a < s.desc.outAddr ∨ s.desc.outAddr + cut ≤ a → memByte first.mem a = memByte s.mem a := hfirst.kept
  have restKept : ∀ a, a < s.desc.outAddr + cut ∨ s.desc.outAddr + cut + (s.desc.inLen - cut) ≤ a →
      memByte second.mem a = memByte first.mem a := hsecond.kept
  by_cases outside : a < s.desc.outAddr ∨ s.desc.outAddr + s.desc.inLen ≤ a
  · rw [restKept a (by omega), firstKept a (by omega), done.kept a outside]
  · obtain ⟨j, rfl⟩ := Nat.exists_eq_add_of_le (Nat.not_lt.1 fun h => outside (.inl h))
    by_cases early : j < cut
    · rw [restKept _ (by omega), done.output wf j (by omega)]
      exact hfirst.output wf j early
    · obtain ⟨i, rfl⟩ := Nat.exists_eq_add_of_le (Nat.not_lt.1 early)
      have input : memByte first.mem (s.desc.inAddr + (cut + i)) = memByte s.mem (s.desc.inAddr + (cut + i)) :=
        firstKept _ (by omega)
      have output := hsecond.output wfFirst i (show i < s.desc.inLen - cut by omega)
      rw [keystreamByte_restPart same whole] at output
      rw [done.output wf _ (by omega), ← input, ← Nat.add_assoc, ← Nat.add_assoc]
      exact output

end

/-- Settles O41: both parts run where the whole runs; their blocks add up, and so do their bytes. -/
theorem commandIsResumable : Obligations.CommandIsResumable := by
  intro s cut wf acc ranges mem whole le
  obtain ⟨t, ht⟩ := xform_runs ranges acc (.inr mem)
  have done := commandDone ht acc
  have acc₁ := firstPart_accepted acc le
  obtain ⟨first, hfirst⟩ := xform_runs (firstPart_ranges ranges acc.lengths le) acc₁ (.inr (firstPart_memory mem le))
  have done₁ := commandDone hfirst acc₁
  have params : first.params = s.params := params_of_surroundings (s := firstPart s cut) done₁.outside
  have faults : accessFault first = accessFault s := accessFault_of_surroundings (s := firstPart s cut) done₁.outside
  have acc₂ := restPart_accepted (first := first) acc le whole (returnedCounter_toNat acc₁)
  obtain ⟨second, hsecond⟩ := xform_runs (restPart_ranges ranges acc.lengths le params) acc₂
    (.inr (restPart_memory mem faults))
  have done₂ := commandDone hsecond acc₂
  have same := done₁.sameKey (firstPart_ranges ranges acc.lengths le)
  have wf₁ : Memory.wf first.mem := exec_memWf (s := firstPart s cut) wf hfirst
  refine ⟨t, first, second, _, ht, hfirst, done₁.result, hsecond, ?_, ?_⟩
  · refine memory_ext (exec_memWf (s := restPart s first cut _) wf₁ hsecond) (exec_memWf wf ht) ?_
    exact parts_mem wf ranges le whole done done₁ wf₁ ⟨same.key, same.nonce⟩ done₂
  · rw [done₂.result, done.result, ← blockCount_parts le whole, BitVec.ofNat_add, ← BitVec.add_assoc]
    rfl

/-! A command on its own output (R121). -/

/-- The command of `s` on the output it has left in `t`, written to `place`. -/
def wayBack (s t : State) (place : Nat) : State :=
  { t with desc := { s.desc with inAddr := s.desc.outAddr, outAddr := place } }

/-- Settles O42: the way back XORs each byte with the keystream byte the command has XORed it with. -/
theorem commandIsAnInvolution : Obligations.CommandIsAnInvolution := by
  intro s place wf acc ranges mem
  obtain ⟨t, ht⟩ := xform_runs ranges acc (.inr mem)
  have done := commandDone ht acc
  refine ⟨t, ht, fun (ranges' : LegalRanges (wayBack s t place).params (wayBack s t place).desc)
    (mem' : MemoryAccepts (wayBack s t place)) => ?_⟩
  have acc' : Accepted (wayBack s t place).desc := { acc with }
  obtain ⟨u, hu⟩ := xform_runs ranges' acc' (.inr mem')
  refine ⟨u, hu, fun j hj => ?_⟩
  have wf' : Memory.wf t.mem := exec_memWf wf ht
  have there := done.output wf j hj
  have back : memByte u.mem (place + j) = memByte t.mem (s.desc.outAddr + j) ^^^ keystreamByte (wayBack s t place) j :=
    (commandDone hu acc').output wf' j hj
  have stream : keystreamByte (wayBack s t place) j = keystreamByte s j :=
    keystreamByte_congr (s' := wayBack s t place) (done.sameKey ranges) rfl rfl rfl rfl rfl
  rw [back, stream, there, BitVec.xor_assoc, BitVec.xor_self, BitVec.xor_zero]

/-! A command on other registers and other memory (R121). -/

/-- The memory accepts a command by its descriptor and the platform alone (R48). -/
theorem memoryAccepts_congr (desc : s'.desc = s.desc) (faults : accessFault s' = accessFault s) (mem : MemoryAccepts s) :
    MemoryAccepts s' := by
  obtain ⟨input, output, key, nonce⟩ := mem
  constructor <;> rw [desc, faults] <;> assumption

/-- Settles O43: the trap is the descriptor's, and so is what memory accepts; the output bytes are input XOR keystream in both
runs. -/
theorem outputDependsOnDescriptorAndBuffersOnly : Obligations.OutputDependsOnDescriptorAndBuffersOnly := by
  intro s s' t wf wf' desc params rejects input key nonce h
  have ranges := xform_ranges h
  have ranges' : LegalRanges s'.params s'.desc := params ▸ desc ▸ ranges
  cases failed : commandError s.desc with
  | some e =>
    obtain rfl := Host.Outcome.next.inj ((xform_trap ranges failed).symm.trans h)
    exact ⟨_, xform_trap ranges' (desc ▸ failed), rfl, nofun⟩
  | none =>
    have acc := commandError_eq_none.1 failed
    have acc' : Accepted s'.desc := desc ▸ acc
    have mem' : s'.desc.inLen = 0 ∨ MemoryAccepts s' := by
      refine or_iff_not_imp_left.2 fun bytes => ?_
      exact memoryAccepts_congr desc.symm (accessFault_congr params.symm rejects.symm)
        (xform_memoryAccepts h acc (desc ▸ bytes))
    obtain ⟨t', h'⟩ := xform_runs ranges' acc' mem'
    have done := commandDone h acc
    have done' := commandDone h' acc'
    refine ⟨t', h', by rw [done.result, done'.result, desc], fun c _ j hj => ?_⟩
    have stream : keystreamByte s' j = keystreamByte s j := by
      refine keystreamByte_congr ⟨key, nonce⟩ ?_ ?_ ?_ ?_ rfl <;> rw [desc]
    have output := done'.output wf' j (desc ▸ hj)
    rw [← desc] at output
    rw [output, stream, done.output wf j hj, input j hj]

end Sys2Proof.Machine
end

/-! ### The XOR Overlay: the bytes XORB writes, the registers WIPE clears (R140, R141) -/
section
namespace Sys2Proof.Machine

variable {s : State}

/-- Moving both ranges by the same distance keeps them apart, or partially overlapping (R45). -/
theorem overlapsPartially_add_right (a b c len : Nat) :
    overlapsPartially (a + c) (b + c) len = overlapsPartially a b len := by
  rw [Bool.eq_iff_iff, ← not_iff_not, Bool.not_eq_true, Bool.not_eq_true, overlapsPartially_eq_false,
    overlapsPartially_eq_false]
  omega

/-- The bytes of a block overlap partially exactly when as many bytes at the start of the buffers do (R45, R140). -/
theorem overlapsPartially_block (s : State) (m : Nat) :
    overlapsPartially (inByteAddr s 0) (outByteAddr s 0) m = overlapsPartially s.desc.inAddr s.desc.outAddr m :=
  overlapsPartially_add_right s.desc.inAddr s.desc.outAddr (Config.blockSize * s.blk.toNat) m

/-- The overlay is not refused exactly when neither the command's ranges nor the word's own bytes overlap partially (R45, R140;
log 8). -/
theorem overlayRefusal_eq_none {m : Nat} :
    overlayRefusal s m = none ↔ overlapsPartially s.desc.inAddr s.desc.outAddr s.desc.inLen = false ∧
      overlapsPartially s.desc.inAddr s.desc.outAddr m = false := by
  rw [overlayRefusal, overlapsPartially_block]
  simp

/-- Settles O31: the overlay runs, and its memory differs from the old one in the bytes of the block alone. -/
theorem xorbCombinesOneBlock : Obligations.XorbCombinesOneBlock := by
  intro s m h1 h64 wf command own read write
  have ownApart : overlapsPartially s.desc.inAddr s.desc.outAddr m.toNat = false :=
    overlapsPartially_eq_false.2 (.inr own)
  have apart : overlayRefusal s m.toNat = none :=
    overlayRefusal_eq_none.2 ⟨overlapsPartially_eq_false.2 command, ownApart⟩
  have accepted : firstFault s (overlayAccesses s m.toNat) = none :=
    overlayAccesses_accepted.2 fun j hj => ⟨read j hj, write j hj⟩
  refine ⟨{ s with mem := overlayMem s m.toNat }, ?_, rfl, fun j hj => ?_, fun a ha => ?_⟩
  · rw [exec_xorb_of_legal h1 h64]
    exact overlay_eq_next.2 ⟨apart, accepted, rfl⟩
  · exact overlayMem_byte wf hj ((overlapsPartially_block s m.toNat).trans ownApart)
  · exact overlayMem_other ha

/-- WIPE answers the state with the key-derived registers cleared (R141). -/
theorem exec_wipe (s : State) : exec .wipe s = .next (wipeRegisters s) := rfl

/-- Settles O33: each cleared register is a vector of zeros. -/
theorem wipeClearsKeyDerivedRegisters : Obligations.WipeClearsKeyDerivedRegisters := by
  intro s
  have zero {n w : Nat} (j : Fin n) : (Vector.replicate n (0 : BitVec w))[j] = 0 := Vector.getElem_replicate _
  exact ⟨wipeRegisters s, exec_wipe s, fun j => ⟨zero j, zero j⟩, zero, zero, zero, rfl⟩

end Sys2Proof.Machine
end

/-! ### The trap: where it comes from, what it leaves, and the check it reports (R156 to R158) -/
section
namespace Sys2Proof.Machine

open Sys2Proof.Safety

variable {s t : State} {d : Descriptor} {e : Exc}

/-! The trap of the sequencer (R157, R158). -/

/-- A word of a running command that ends it with an error is VALID or OVFCHK, and has done nothing but take the trap (R157). -/
theorem Effect.eq_takeTrap {i : Instr} (h : Effect s i t) (hi : i ≠ .xform) (running : s.result = .none)
    (failed : t.result = .err e) : (i = .valid ∨ i = .ovfchk) ∧ t = takeTrap e s := by
  cases h with
  | validTrap e' =>
    obtain rfl : e' = e := Result.err.inj failed
    exact ⟨.inl rfl, rfl⟩
  | ovfchkTrap =>
    obtain rfl : .counterOverflow = e := Result.err.inj failed
    exact ⟨.inr rfl, rfl⟩
  | ret => cases failed
  | xform => exact absurd rfl hi
  | _ => simp [running] at failed

/-- The checks are issued in P_VALID and P_OVF only. -/
theorem issue_check {i : Instr} (h : issue s = some i) (check : i = .valid ∨ i = .ovfchk) :
    s.ph = .valid ∨ s.ph = .ovf := by
  by_contra past
  obtain ⟨valid, ovf⟩ := not_or.1 past
  obtain ⟨notValid, notOvfchk⟩ := issue_past_checks valid ovf
  obtain rfl | rfl := check
  · exact notValid h
  · exact notOvfchk h

/-- The move of PC leaves RESULT. -/
theorem advance_result (s : State) : (advance s).result = s.result :=
  (congrArg State.result (advance_frame s)).trans rfl

/-- A step of a running command that ends in an error is the trap of VALID or OVFCHK, after which PC stays (R157). -/
theorem engineStep_trap (running : s.result = .none) (h : engineStep s = .next t) (failed : t.result = .err e) :
    (s.ph = .valid ∨ s.ph = .ovf) ∧ t = takeTrap e s := by
  obtain ⟨-, rfl⟩ | ⟨i, u, hi, hu, rfl⟩ := engineStep_effect h
  · cases running.symm.trans failed
  · have notXform : i ≠ .xform := fun hx => issue_ne_xform (hx ▸ hi)
    obtain ⟨check, rfl⟩ := hu.eq_takeTrap notXform running ((advance_result u).symm.trans failed)
    exact ⟨issue_check hi check, rfl⟩

/-- CTR holds COUNTER, as START has set it, until OVFCHK has passed (R110). -/
theorem ctr_eq_counter (inv : EngineInv s) (ph : s.ph = .valid ∨ s.ph = .ovf) : s.ctr = s.desc.counter := by
  have busy : s.ph ≠ .idle := by obtain ph | ph := ph <;> simp [ph]
  obtain ⟨blk, -⟩ := inv.uncounted ph
  apply BitVec.eq_of_toNat_eq
  rw [inv.counter busy, blk]
  rfl

/-- Settles O18: the step is the trap, and what it leaves is what the invariant says of P_VALID and P_OVF. -/
theorem trapIsAtomic : Obligations.TrapIsAtomic := by
  intro s t e inv busy h failed
  obtain ⟨ph, rfl⟩ := engineStep_trap (inv.noResult busy) h failed
  obtain ⟨blk, nblk⟩ := inv.uncounted ph
  obtain ⟨dr, qi⟩ := inv.roundRest (by obtain ph | ph := ph <;> simp [ph])
  have ctr := ctr_eq_counter inv ph
  have zero : DatapathZero s := inv.zero (by obtain ph | ph := ph <;> simp [ph, holdsKey])
  exact ⟨ph, rfl, ctr, nblk, blk, dr, qi, { zero with }, rfl, rfl⟩

/-! The exception of XFORM, check by check (R156). -/

/-- A command takes the exception VALID finds. -/
theorem commandError_of_entryError (failed : entryError d = some e) : commandError d = some e := by
  simp only [commandError, failed]

/-- A command that VALID passes takes OVFCHK's exception when the counter overflows. -/
theorem commandError_of_overflow (checked : entryError d = none) (overflows : counterOverflows d = true) :
    commandError d = some .counterOverflow := by
  simp only [commandError, checked, overflows, if_true]

/-- Settles O34: each clause is one branch of `commandError`, which names the trap XFORM takes on the registers START has set. -/
theorem xformReportsTheFirstFailingCheck : Obligations.XformReportsTheFirstFailingCheck := by
  intro s e ranges first
  refine xform_trap (e := e) ranges ?_
  rcases first with ⟨len, rfl⟩ | ⟨len, nonce, rfl⟩ | ⟨len, nonce, key, rfl⟩ | ⟨len, nonce, key, rounds, rfl⟩ |
    ⟨len, nonce, key, rounds, overflows, rfl⟩
  · exact commandError_of_entryError (by simp [entryError, len])
  · exact commandError_of_entryError (by simp [entryError, len, nonce, Config.nonceSize])
  · exact commandError_of_entryError (by simp [entryError, len, nonce, key, Config.nonceSize, Config.keySize])
  · exact commandError_of_entryError
      (by simp [entryError, len, nonce, key, legalRounds_eq_false.2 rounds, Config.nonceSize, Config.keySize])
  · exact commandError_of_overflow (entryError_eq_none.2 ⟨len, nonce, key, rounds⟩) (counterOverflows_eq_true.2 overflows)

end Sys2Proof.Machine
end

/-! ### Moves without a meaning, the hand-over of memory, and reset (R180 to R183, R189, R50) -/
section
namespace Sys2Proof.Machine

open Sys2Proof.Safety

variable {s : State} {rest : List HostMove} {a k v : Nat}

/-! Moves the model does not have (R182, R189). -/

/-- START names a register that is not written, when there is one (R182). -/
theorem startMove_unwritten {r : DescReg} (unwritten : s.isWritten r = false) :
    ∃ r', s.isWritten r' = false ∧ startMove s = .refused (.startUnwritten r') := by
  cases found : firstUnwritten s with
  | none => simp [firstUnwritten_eq_none.1 found r] at unwritten
  | some r' =>
    have first : s.isWritten r' = false := by simpa using List.find?_some found
    exact ⟨r', first, by simp only [startMove, found]⟩

/-- In IDLE a write to CTRL with bit 0 = 1 is START (R21). -/
theorem hostWrite_start (idle : s.ph = .idle) (odd : v % 2 = 1) : hostWrite .ctrl v s = startMove s := by
  simp [hostWrite, busy_eq_false.2 idle, odd]

/-- While BUSY the descriptor and CTRL take no write (R20, R21, R189). -/
theorem hostWrite_busy {r : HostReg} (busy : s.ph ≠ .idle) (writable : r = .ctrl ∨ ∃ d, r = .desc d) :
    hostWrite r v s = .refused .hostMoveWhileBusy := by
  obtain rfl | ⟨d, rfl⟩ := writable <;> exact if_pos (busy_eq_true.2 busy)

/-- Without a listing, a waiting register write is the step (R8). -/
theorem step_hostWrite {r : HostReg} (hl : s.listing = []) (hh : s.host = .write r v :: rest) :
    step s = hostWrite r v { s with host := rest } := step_host hl hh

/-- Settles O54: START looks for an unwritten register first, and a write of CTRL or of the descriptor looks at BUSY first. -/
theorem hostMovesTheModelDoesNotHave : Obligations.HostMovesTheModelDoesNotHave := by
  refine ⟨fun s rest r v hl hh odd idle unwritten => ?_, fun s rest v hl busy hh => ?_⟩
  · obtain ⟨r', first, start⟩ := startMove_unwritten (s := { s with host := rest }) unwritten
    exact ⟨r', first, (step_hostWrite hl hh).trans ((hostWrite_start (s := { s with host := rest }) idle odd).trans start)⟩
  · obtain hh | ⟨r, hh⟩ := hh
    · exact (step_hostWrite hl hh).trans (hostWrite_busy busy (.inl rfl))
    · exact (step_hostWrite hl hh).trans (hostWrite_busy busy (.inr ⟨r, rfl⟩))

/-! The hand-over of memory (R183, R50). -/

/-- The bytes a busy engine holds: the output against every access, the input, nonce and key against writes (R50). -/
theorem bufferHeld_eq_true {kind : Access} : bufferHeld s kind a = true ↔ s.ph ≠ .idle ∧
    ((s.desc.outAddr ≤ a ∧ a < s.desc.outAddr + s.desc.outLen) ∨ kind = .write ∧
      ((s.desc.inAddr ≤ a ∧ a < s.desc.inAddr + s.desc.inLen) ∨
        (s.desc.nonceAddr ≤ a ∧ a < s.desc.nonceAddr + s.desc.nonceLen) ∨
        (s.desc.keyAddr ≤ a ∧ a < s.desc.keyAddr + s.desc.keyLen))) := by
  simp [bufferHeld, or_assoc]

/-- A byte a busy engine holds is refused to the host (R50). -/
theorem hostAccess_held {kind : Access} {next : State} (held : bufferHeld s kind a = true) :
    hostAccess kind a s next = .refused (.bufferInUse a) := if_pos held

/-- In IDLE the host's access goes on where the memory accepts it (R183). -/
theorem hostAccess_idle {kind : Access} {next : State} (idle : s.ph = .idle) (accepted : accessFault s kind a = none) :
    hostAccess kind a s next = .next next := by
  have free : ¬bufferHeld s kind a = true := fun held => (bufferHeld_eq_true.1 held).1 idle
  simp only [hostAccess, if_neg free, accepted]

/-- Settles O57: in IDLE no buffer is held and an access is one read or one store; while BUSY the four buffers are held. -/
theorem hostMemoryHandOver : Obligations.HostMemoryHandOver := by
  refine ⟨fun s rest a v hl idle wf hh accepted => ?_, fun s rest a hl idle hh accepted => ?_,
    fun s rest a v hl busy hh inside => ?_, fun s rest a hl busy hh low high => ?_⟩
  · refine ⟨{ s with host := rest, mem := memStore s.mem a v }, ?_, rfl, memByte_memStore_same _ _ _ wf,
      fun b other => memByte_memStore_other _ _ _ _ other⟩
    exact (step_host hl hh).trans (hostAccess_idle idle accepted)
  · exact (step_host hl hh).trans (hostAccess_idle idle accepted)
  · refine (step_host hl hh).trans (hostAccess_held (bufferHeld_eq_true.2 ⟨busy, ?_⟩))
    obtain output | input | key | nonce := inside
    · exact .inl output
    · exact .inr ⟨rfl, .inl input⟩
    · exact .inr ⟨rfl, .inr (.inr key)⟩
    · exact .inr ⟨rfl, .inr (.inl nonce)⟩
  · exact (step_host hl hh).trans (hostAccess_held (bufferHeld_eq_true.2 ⟨busy, .inl ⟨low, high⟩⟩))

/-! Reset (R180, R181). -/

/-- Reset touches no memory when no XORB is in progress, or when none of its bytes has been written (R181; log 14). -/
theorem resetMove_quiet (quiet : s.ph ≠ .xor ∨ k = 0) : resetMove k s = .next (resetEngine s) := by
  cases ph : s.ph with
  | xor =>
    obtain rfl := quiet.resolve_left (not_not_intro ph)
    simp [resetMove, ph]
  | _ => simp [resetMove, ph]

/-- Ranges that do not overlap partially have starts that do not either (R45). -/
theorem overlapsPartially_of_le {a b len m : Nat} (h : overlapsPartially a b len = false) (le : m ≤ len) :
    overlapsPartially a b m = false := by
  rw [overlapsPartially_eq_false] at h ⊢
  omega

/-- The first bytes of the current block do not overlap partially, as the command's ranges do not (R45, R181). -/
theorem firstBytes_apart {r m : Nat} (inv : LoopInv s (r + 1)) (le : m ≤ blockBytes s) :
    overlapsPartially s.desc.inAddr s.desc.outAddr m = false := by
  obtain ⟨last, -⟩ := inv.blockBytes_end
  exact overlapsPartially_of_le (overlapsPartially_eq_false.2 inv.ranges.inOut) (by omega)

/-- The overlay of the first bytes of the current block runs where memory accepts the command (R140, R181). -/
theorem overlay_firstBytes {r m : Nat} (inv : LoopInv s (r + 1)) (acc : MemoryAccepts s) (le : m ≤ blockBytes s) :
    overlay m s = .next { s with mem := overlayMem s m } := by
  have apart : overlayRefusal s m = none :=
    overlayRefusal_eq_none.2 ⟨overlapsPartially_eq_false.2 inv.ranges.inOut, firstBytes_apart inv le⟩
  have accepted : firstFault s (overlayAccesses s m) = none :=
    overlayAccesses_accepted.2 fun j hj => inv.acceptsBlock acc j (by omega)
  exact overlay_eq_next.2 ⟨apart, accepted, rfl⟩

/-- Reset during an XORB leaves the overlay of its first bytes in memory (R181; log 14). -/
theorem resetMove_xor {r : Nat} (inv : LoopInv s (r + 1)) (acc : MemoryAccepts s) (ph : s.ph = .xor) :
    resetMove k s = .next (resetEngine { s with mem := overlayMem s (min k (blockBytes s)) }) := by
  obtain ⟨last, -⟩ := inv.blockBytes_end
  have block : min (blockBytes s) Config.blockSize = blockBytes s := Nat.min_eq_left (by rw [Config.blockSize]; omega)
  simp only [resetMove, ph, block, overlay_firstBytes inv acc (Nat.min_le_right k (blockBytes s)), andThen_next]
  split
  · rename_i none
    rw [none]
    rfl
  · rfl

/-- Settles O58: reset keeps memory, or leaves what XORB writes in the first of its bytes. -/
theorem resetAbandonsTheCommand : Obligations.ResetAbandonsTheCommand := by
  refine ⟨fun s rest k hl hh quiet => ?_, fun s rest k inv acc hh ph => ?_⟩
  · rw [step_host hl hh]
    refine (resetMove_quiet (s := { s with host := rest }) quiet).trans ?_
    rw [resetEngine, hl]
    rfl
  · let s' : State := { s with host := rest }
    have inv' : EngineInv s' := engineInv_of_engine_eq inv inv.memWf rfl
    have acc' : MemoryAccepts s' := memoryAccepts_congr (s := s) (s' := s') rfl rfl acc
    obtain ⟨r, loop⟩ := loopInv_of_inBlock (inv'.inBlock (by rw [show s'.ph = .xor from ph]; rfl))
    have own := firstBytes_apart loop (Nat.min_le_right k (blockBytes s'))
    refine ⟨_, (step_host inv.noListing hh).trans (resetMove_xor loop acc' ph), ?_, fun j hj => ?_, fun a ha => ?_⟩
    · rw [resetEngine, inv'.noListing]
      rfl
    · exact overlayMem_byte inv'.memWf hj ((overlapsPartially_block s' _).trans own)
    · exact overlayMem_other (s := s') ha

end Sys2Proof.Machine
end
